-- ==== Sys2Proof/Word.lean ====
section
/-! DEFINITION. The word types of the model: bytes, the 32-bit running hash, the 16-byte fingerprint, and the
one shape every sparse table of the engine is held in. -/

namespace Sys2Proof

/-- One byte of a record or of a stream. -/
abbrev Byte := BitVec 8

/-- A 32-bit word: the running hash H, a gear value, the check value of a frame (R26, R24, R150). -/
abbrev Word32 := BitVec 32

/-- A fingerprint of 16 bytes, its first byte most significant (R32, R53). -/
abbrev Fp := BitVec 128

/-- A table keyed by number, held sparsely: only the places whose contents differ from the table's resting value
are listed, with their numbers strictly rising, so that equal tables are equal lists. -/
abbrev Table (α : Type) := List (Nat × α)

end Sys2Proof
end

