-- ==== Sys2Proof/Syntax.lean ====
section
/-! DEFINITION. The commands of the engine: one constructor per row of the table of operations and events. A
request row ("the owner takes the request at the head of the request queue", R156) carries no operand of its own,
since its operands are the queued record's; an event row carries what the manual leaves to the event: the lane, the
stream slot, the place in the window, the bytes of a frame, the number of corrected memory errors its reads met. -/

namespace Sys2Proof

/-- One constructor per row of the table, in the table's order. `corrected` is the number of errors that the reads
of index memory made by the command met and corrected (R76); a command that reads index memory only where a seal's
close goes on within it has 0 there unless told otherwise. -/
inductive Instr where
  | powerOnReset
  | resetPinAssert
  | resetPinRelease
  | indexMemoryClearDone
  | frameReceived (bytes : List Byte)
  | credit (count : Nat)
  | status
  | reset
  | setSetting
  | saveSettings
  | settingsProgramDone
  | declare (corrected : Nat)
  /-- `bad` is the place, counted from 0 among the entries the command judges from their container records, of the one
  whose record's read meets an uncorrectable error (R173, R176). -/
  | seed (corrected : Nat) (bad : Option Nat := none)
  /-- `bad` as for `seed`, among the entries judged after the one whose operation completes. -/
  | seedOpDone (corrected : Nat) (bad : Option Nat := none)
  /-- `bad` is the number of the container whose record's read meets an uncorrectable error in step 1 (R174). -/
  | beginService (corrected : Nat) (bad : Option Nat)
  | openStream
  | data
  | mark
  | seal (corrected : Nat)
  | readReport
  | ackReport
  | retime
  | setWeight
  | setPacing
  | snapshot
  | close
  | abort (corrected : Nat := 0)
  | durable (corrected : Nat)
  | lost (corrected : Nat)
  | free (corrected : Nat)
  | flush (corrected : Nat)
  | queryContainer (corrected : Nat)
  | release
  | clearHold
  | resetBaseline
  | queryBranch
  | transmitStart
  | frameTransmitted (corrected : Nat := 0)
  | tick (corrected : Nat := 0)
  | pacingMatch (slot : Nat) (corrected : Nat := 0)
  | markTimerLimit (slot : Nat) (corrected : Nat := 0)
  | grant
  | laneCut (lane : Nat)
  | laneLookupJoin (corrected : Nat)
  | laneMarkMarker (lane : Nat) (corrected : Nat)
  | laneEndMarker (lane : Nat)
  | laneEntryFinish (lane : Nat) (corrected : Nat := 0)
  | lookupPortGrant
  /-- `place` counts from the head of the lookup queue, the head being 0. -/
  | lookupReadDone (place : Nat) (corrected : Nat)
  | indexMemoryError
  | lookupApply (corrected : Nat)
  | releasePortGrant
  | releaseOpDone (corrected : Nat)
  | sweepPortGrant
  | sweepOpDone (corrected : Nat)
  | heldReadyEntry
  | heldDataRefusedEntry
  | heldStreamClosedEntry (slot : Nat)
  /-- `bad` as for `beginService`, when the held event is a step 1 transition of BEGIN SERVICE. -/
  | heldContainerNoticeEntry (corrected : Nat) (bad : Option Nat)
  | heldReportEntry (slot : Nat)
  | heldAckReport
  /-- `order` names streams whose waiting hand-ons the monitor takes first (R142: "in any order"). -/
  | heldSurgeEntry (order : List Nat)
  | heldReleaseCompleteEntry
  | heldSettingsSavedEntry
  | pendingFaultEntry
  | pendingLinkFaultEntry
  deriving DecidableEq, Repr

end Sys2Proof
end

