-- ==== Sys2Proof/Decode.lean ====
section
/-! DEFINITION. The table of operations and events gives no row any bits (every row's "fields" is empty and none
has "fixed" bits), so no word spells a command. The byte layouts of the records (R164) are read and written in
Machine/Operands.lean and Machine/Link.lean. -/

namespace Sys2Proof

/-- The command a word of `nbits` bits spells: the table gives no row bits, so none does. -/
def decodeTableWord (_nbits _w : Nat) : Option Instr := none

end Sys2Proof
end

