-- ==== Sys2Proof/Config.lean ====
section
/-! DEFINITION. What the manual fixes as numbers, and the two values it leaves open: the fingerprint function
(R32 gives no algorithm) and the tag in the header of a notice frame. -/

namespace Sys2Proof.Config

/-- R32: the fingerprint is a fixed function of the chunk's bytes in order, and the manual does not give its
algorithm (00_scope, "What this manual leaves out"). A free value with no body: log entry 1. -/
opaque fingerprint : List Byte → Fp

/-- The tag in the header of a frame that carries a notice is nowhere stated (R150 gives the field, R157 fixes it
for replies alone). A free value, applied to the counter `State.freeNext`: log entry 2. -/
opaque noticeTag : Nat → Nat

/-- R1: 64 stream slots. -/
abbrev slotCount : Nat := 64
/-- R13: an input queue holds up to 8 entries. -/
abbrev inputQueueMax : Nat := 8
/-- R101: a verdict queue has 64 places. -/
abbrev verdictPlaces : Nat := 64
/-- R41: the reserve of verdict places, and of dependency places, a grant needs. -/
abbrev grantReserve : Nat := 16
/-- R117: a dependency set holds at most 32 containers. -/
abbrev depMax : Nat := 32
/-- R33: four lanes. -/
abbrev laneCount : Nat := 4
/-- R60: the lookup queue holds up to 64 lookups. -/
abbrev lookupMax : Nat := 64
/-- R61: the window is the first 16 lookups. -/
abbrev windowMax : Nat := 16
/-- R51: the number of buckets. -/
abbrev bucketCount : Nat := 4194304
/-- R51: the most entries a bucket holds. -/
abbrev bucketMax : Nat := 8
/-- R54: the most entries the spill table holds. -/
abbrev spillMax : Nat := 65536
/-- R58: the reference count of a pinned entry. -/
abbrev pinned : Nat := 65535
/-- R52: the greatest length of an index entry. -/
abbrev lengthMax : Nat := 65536
/-- R78: the number of containers. -/
abbrev containerCount : Nat := 65536
/-- R173: the most entries one SEED carries. -/
abbrev seedMax : Nat := 32
/-- R81: placement groups 0 to 7. -/
abbrev groupCount : Nat := 8
/-- R137: the release queue holds up to 256 items. -/
abbrev releaseMax : Nat := 256
/-- R160: the notice queue holds up to 128 notices. -/
abbrev noticeMax : Nat := 128
/-- R155: at most 16 requests are outstanding. -/
abbrev outstandingMax : Nat := 16
/-- R158: the transmit credit never exceeds 255. -/
abbrev creditMax : Nat := 255
/-- R72: lookup grants a waiting release item can be passed by. -/
abbrev releaseShare : Nat := 8
/-- The greatest value of a saturating counter of 32 bits (R76, R127, R134, R152). -/
abbrev counterMax : Nat := 4294967295
/-- R134: the greatest value of the two byte totals of a branch. -/
abbrev byteTotalMax : Nat := 18446744073709551615
/-- The greatest stream offset, 2^48 − 1. -/
abbrev offsetMax : Nat := 281474976710655
/-- One MiB. -/
abbrev mib : Nat := 1048576

end Sys2Proof.Config
end

