-- ==== Sys2Proof/Machine/State.lean ====
section
/-! DEFINITION. Everything the engine holds, block by block as the manual's outline divides it, and the state right
after reset. Plain data throughout; the tables of slots, lanes, branches, buckets, spill entries, containers and open
places are sparse `Table`s whose resting values are given beside their types. -/

namespace Sys2Proof.Machine

/-! ## Names of the manual's enumerated values (R164) -/

/-- R165. -/
inductive DevState where | starting | restore | service | fault
  deriving DecidableEq, Repr
/-- R166. -/
inductive ResetCause where | power | pin | command
  deriving DecidableEq, Repr
/-- R169, R171. -/
inductive StoreState where | invalid | valid | saving
  deriving DecidableEq, Repr
/-- R1, R3. -/
inductive SlotState where | free | active | draining | aborting
  deriving DecidableEq, Repr
/-- R27, R30, R31. -/
inductive CutReason where | max | strict | loose | mark | endCut
  deriving DecidableEq, Repr
/-- R66, R68. -/
inductive VerdictKind where | new | dup | pass
  deriving DecidableEq, Repr
/-- R78. -/
inductive ContState where | free | open_ | full | durable | reclaimable | lost
  deriving DecidableEq, Repr
/-- R96. -/
inductive FullCause where | space | flush | seal
  deriving DecidableEq, Repr
/-- R119. -/
inductive MarkPhase where | none | open_ | sealing
  deriving DecidableEq, Repr
/-- R124. -/
inductive Outcome where | clean | mismatch | tainted | violation
  deriving DecidableEq, Repr
/-- R124. -/
inductive LengthMatch where | matched | different | unknown
  deriving DecidableEq, Repr
/-- R33. -/
inductive LaneState where | idle | working | waiting
  deriving DecidableEq, Repr
/-- R60. -/
inductive LookupState where | queued | pending | reading | read | blocked
  deriving DecidableEq, Repr
/-- R134. -/
inductive BranchPhase where | cold | hot
  deriving DecidableEq, Repr
/-- R152. -/
inductive LinkCause where | check | length | overrun
  deriving DecidableEq, Repr
/-- R16, R18. -/
inductive CloseReason where | closed | aborted
  deriving DecidableEq, Repr
/-- R157's table of reasons. -/
inductive Reason where
  | badState | unknownKind | badLength | noSlot | branchBusy | noStream | badProfile | markBusy | noMark | slotHeld
  | locked | held | range | queueFull | offset | noReport | settingsBusy | noContainer
  deriving DecidableEq, Repr
/-- The 29 request kinds in the order of their codes (R153). -/
inductive ReqKind where
  | status | reset | credit | setSetting | saveSettings | declare | seed | beginService
  | openStream | data | mark | seal | readReport | ackReport | retime | setWeight | setPacing | snapshot | close | abort
  | durable | lost | free | flush | queryContainer | release | clearHold | resetBaseline | queryBranch
  deriving DecidableEq, Repr
/-- The values OPEN, RETIME and SET PACING can bring into range, in the order of their codes (R164). -/
inductive ClampField where
  | lmin | ltgt | lmax | ks | kl | seed | interval | lengthCheck | weight | pacingPeriod | threshold
  deriving DecidableEq, Repr

/-! ## Start-up and settings controller (chapter 10) -/

/-- R169: the fifteen settings, in setting-number order. -/
structure Settings where
  lmin : Nat
  ltgt : Nat
  lmax : Nat
  ks : Nat
  kl : Nat
  seed : Nat
  interval : Nat
  lengthCheck : Nat
  weight : Nat
  pacing : Nat
  threshold : Nat
  frameExp : Nat
  capacityMib : Nat
  margin : Nat
  minSampleMib : Nat
  deriving DecidableEq, Repr

/-- R169: the factory values. -/
def Settings.factory : Settings :=
  ⟨2048, 8192, 32768, 14, 12, 0, 300, 0, 4, 250, 32, 7, 16, 256, 16⟩

/-- R164: one seed entry as carried. -/
structure SeedEntry where
  fp : Fp
  length : Nat
  container : Nat
  offset : Nat
  refs : Nat
  deriving DecidableEq, Repr

/-- R173: a SEED being worked: the entries not yet dealt with, the one holding the port first, and the counts. -/
structure SeedWork where
  rest : List SeedEntry
  taken : Nat
  field : Nat
  container : Nat
  duplicate : Nat
  room : Nat
  deriving DecidableEq, Repr

/-- The start-up and settings controller. -/
structure Ctl where
  /-- R165. -/
  dev : DevState
  /-- R166. -/
  cause : ResetCause
  /-- R166: the reset pin as it stands; while it is held the engine stays in reset. -/
  pinHeld : Bool
  /-- R168: the clearing of index memory is under way. -/
  clearing : Bool
  /-- R168: READY waits for room in the notice queue. -/
  readyHeld : Bool
  /-- R169: the working settings. -/
  settings : Settings
  /-- R169. -/
  settingsValid : Bool
  /-- R169: the copy in the settings store, absent when the store is blank or its check value disagrees. -/
  storeCopy : Option Settings
  /-- R169, R171. -/
  storeState : StoreState
  /-- R171: the copy being programmed. -/
  programming : Option Settings
  /-- R171: SETTINGS SAVED waits for room; the values written. -/
  savedHeld : Option Settings
  /-- R76. -/
  corrected : Nat
  /-- R176: set in FAULT; the one cause is INDEX MEMORY. -/
  faultCause : Bool
  /-- R176: the FAULT notice waits for room; the state the device was in. -/
  faultPending : Option DevState
  /-- R167: a RESET has been taken and waits for its reply's transmission. -/
  resetTaken : Bool
  /-- R173: the SEED being worked, which stands at the head of the request queue. -/
  seedWork : Option SeedWork
  /-- R174: BEGIN SERVICE held in step 1, with the number of containers made RECLAIMABLE so far. -/
  beginWork : Option Nat
  deriving DecidableEq, Repr

/-! ## Chunking, spans, marks, verdicts (chapters 1, 2, 6, 7) -/

/-- R22, R24: a chunking profile with the gear table made from its seed. -/
structure Profile where
  lmin : Nat
  ltgt : Nat
  lmax : Nat
  ks : Nat
  kl : Nat
  seed : Nat
  gear : List Word32
  deriving DecidableEq, Repr

/-- R25: a chunker context. The accumulator holds the chunk's bytes so far, latest first: the digest's working state
is a function of them (log entry 1). -/
structure Ctx where
  hash : Word32
  len : Nat
  start : Nat
  acc : List Byte
  deriving DecidableEq, Repr

/-- R13: an entry of an input queue. -/
inductive Entry where
  | data (offset : Nat) (bytes : List Byte)
  | mark (offset : Nat)
  | endMark (offset : Nat)
  deriving DecidableEq, Repr

/-- R114: the eight counters of a span. -/
structure Counters where
  bytes : Nat
  chunks : Nat
  newChunks : Nat
  newBytes : Nat
  dupChunks : Nat
  dupBytes : Nat
  passChunks : Nat
  passBytes : Nat
  deriving DecidableEq, Repr

/-- Counters at 0. -/
def Counters.zero : Counters := ⟨0, 0, 0, 0, 0, 0, 0, 0⟩

/-- R114: a span record. -/
structure Span where
  number : Nat
  start : Nat
  endOff : Option Nat
  outstanding : Nat
  counters : Counters
  deps : List Nat
  tainted : Bool
  lostDeps : Nat
  retired : Bool
  deriving DecidableEq, Repr

/-- R114: a span at its start. -/
def Span.fresh (number start : Nat) : Span := ⟨number, start, none, 0, .zero, [], false, 0, false⟩

/-- R119: a mark record. -/
structure Mark where
  phase : MarkPhase
  id : Option Nat
  offset : Option Nat
  cut : Bool
  sealLen : Option Nat
  timer : Nat
  limit : Nat
  deriving DecidableEq, Repr

/-- R119: the record in phase NONE. -/
def Mark.none_ : Mark := ⟨.none, none, none, false, none, 0, 0⟩

/-- R124: a report. -/
structure Report where
  stream : Nat
  branch : Nat
  id : Nat
  outcome : Outcome
  spanNumber : Nat
  start : Nat
  endOff : Option Nat
  expected : Option Nat
  lengthMatch : LengthMatch
  counters : Counters
  tainted : Bool
  lostDeps : Nat
  outstanding : Nat
  depsLeft : Nat
  elapsed : Nat
  deriving DecidableEq, Repr

/-- R103: a verdict. -/
structure Verdict where
  start : Nat
  length : Nat
  kind : VerdictKind
  cut : CutReason
  fp : Fp
  container : Option Nat
  offset : Option Nat
  cstate : Option ContState
  deriving DecidableEq, Repr

/-- R108: a VERDICT BATCH. -/
structure Batch where
  consumed : Nat
  final : Bool
  aborted : Bool
  verdicts : List Verdict
  deriving DecidableEq, Repr

/-- R14: the stream totals, in the order R1 gives. -/
structure Totals where
  accepted : Nat
  consumed : Nat
  chunks : Nat
  newChunks : Nat
  newBytes : Nat
  dupChunks : Nat
  dupBytes : Nat
  passChunks : Nat
  passBytes : Nat
  deriving DecidableEq, Repr

/-- Totals at 0. -/
def Totals.zero : Totals := ⟨0, 0, 0, 0, 0, 0, 0, 0, 0⟩

/-- R1: a stream slot. -/
structure Slot where
  state : SlotState
  branch : Option Nat
  group : Option Nat
  profile : Option Profile
  interval : Option Nat
  lengthCheck : Option Bool
  activeWeight : Nat
  pendingWeight : Option Nat
  activePacing : Option Nat
  pendingPacing : Option Nat
  pacingCounter : Nat
  threshold : Option Nat
  nextOffset : Nat
  consumed : Nat
  queue : List Entry
  ctx : Option Ctx
  /-- R115: the current span. -/
  current : Option Span
  /-- R115: the mark's span once cut, or a retired ended span kept for its outstanding lookups. -/
  ended : Option Span
  mark : Mark
  /-- R127: the report in the report slot, with its age. -/
  reportSlot : Option (Report × Nat)
  waiting : Option Report
  /-- R128: a report held for room in the notice queue, in neither place. -/
  heldReport : Option Report
  /-- R101: the filled places of the verdict queue, oldest chunk first. -/
  filled : List Verdict
  /-- R101: the number of reserved places, which follow the filled ones. -/
  reserved : Nat
  madeBatch : Option Batch
  /-- R107: the due record. -/
  due : Bool
  /-- R31: the END marker has been reported consumed. -/
  endConsumed : Bool
  /-- R110, R111: the stream's last batch has been made. -/
  finalMade : Bool
  totals : Totals
  /-- R39, R46: the scheduler's budget. -/
  budget : Nat
  deriving DecidableEq, Repr

/-- R1: the values of a FREE slot. -/
def Slot.free : Slot where
  state := .free
  branch := none
  group := none
  profile := none
  interval := none
  lengthCheck := none
  activeWeight := 0
  pendingWeight := none
  activePacing := none
  pendingPacing := none
  pacingCounter := 0
  threshold := none
  nextOffset := 0
  consumed := 0
  queue := []
  ctx := none
  current := none
  ended := none
  mark := .none_
  reportSlot := none
  waiting := none
  heldReport := none
  filled := []
  reserved := 0
  madeBatch := none
  due := false
  endConsumed := false
  finalMade := false
  totals := .zero
  budget := 0

/-! ## Lane scheduler and lanes (chapters 2 and 3) -/

/-- R39: what the scheduler holds for the present frame. -/
structure Sched where
  frameLen : Nat
  grantCount : Nat
  startSlot : Nat
  deriving DecidableEq, Repr

/-- R35: a lookup as submitted. -/
structure Lookup where
  slot : Nat
  span : Nat
  start : Nat
  length : Nat
  fp : Fp
  cut : CutReason
  bucket : Nat
  deriving DecidableEq, Repr

/-- R33, R34: what a lane that is not IDLE holds. -/
structure Work where
  slot : Nat
  entry : Entry
  /-- The bytes of a data entry not yet taken. -/
  rest : List Byte
  profile : Profile
  ctx : Ctx
  /-- R30, R31: the marker has been reported consumed. -/
  markerDone : Bool
  /-- R36: the lookup a WAITING lane could not submit. -/
  held : Option Lookup
  deriving DecidableEq, Repr

/-- R33: a lane. -/
structure Lane where
  state : LaneState
  work : Option Work
  deriving DecidableEq, Repr

/-- R33: an IDLE lane holds nothing. -/
def Lane.idle : Lane := ⟨.idle, none⟩

/-! ## Index unit (chapter 4, and R137) -/

/-- R52: an index entry. -/
structure IndexEntry where
  fp : Fp
  length : Nat
  container : Nat
  offset : Nat
  refs : Nat
  deriving DecidableEq, Repr

/-- R51: a bucket, its entries oldest first. -/
structure Bucket where
  entries : List IndexEntry
  spill : Nat
  deriving DecidableEq, Repr

/-- R51: a bucket after clearing. -/
def Bucket.empty : Bucket := ⟨[], 0⟩

/-- R54: a spill entry has the fields of R52 and its bucket number. -/
structure SpillEntry where
  entry : IndexEntry
  bucket : Nat
  deriving DecidableEq, Repr

/-- R64: the result a READ lookup holds; the flag tells an entry of the spill table from one of the bucket. -/
structure ReadResult where
  found : Option (IndexEntry × Bool)
  count : Nat
  deriving DecidableEq, Repr

/-- R60: a lookup in the lookup queue. -/
structure QLookup where
  lk : Lookup
  state : LookupState
  result : Option ReadResult
  deriving DecidableEq, Repr

/-- R137: an item of the release queue. -/
structure ReleaseItem where
  fp : Fp
  length : Nat
  branch : Nat
  tag : Nat
  last : Bool
  deriving DecidableEq, Repr

/-- R137: the tally of the RELEASE at the head. -/
structure Tally where
  tag : Nat
  branch : Nat
  found : Nat
  freed : Nat
  missed : Nat
  deriving DecidableEq, Repr

/-- R62, R71: the one release, sweep or seed operation in progress, with its bucket. -/
inductive OtherOp where
  | release (bucket : Nat)
  | sweep (bucket : Nat)
  | seed (bucket : Nat)
  deriving DecidableEq, Repr

/-- The index unit. -/
structure Index where
  /-- R51. -/
  buckets : Table Bucket
  /-- R54: the spill table, keyed by fingerprint and length (`spillKey`). -/
  spill : Table (Option SpillEntry)
  /-- R59. -/
  entryCount : Nat
  /-- R59. -/
  spillCount : Nat
  /-- R60: head first. -/
  lookups : List QLookup
  /-- R62. -/
  inflight : List Nat
  /-- R137: head first. -/
  releases : List ReleaseItem
  /-- R137. -/
  tally : Option Tally
  /-- R140: RELEASE COMPLETE waits for room. -/
  completeHeld : Bool
  /-- R71. -/
  other : Option OtherOp
  /-- R72: lookup grants made while a release item waits at the head. -/
  passed : Nat
  /-- R42, R85: the group of the blocked head, while a starvation episode lasts. -/
  starving : Option Nat
  deriving DecidableEq, Repr

/-! ## Placement unit and sweep walker (chapter 5) -/

/-- R78: a container record. -/
structure Container where
  state : ContState
  group : Option Nat
  capacity : Nat
  fill : Nat
  entries : Nat
  live : Nat
  deriving DecidableEq, Repr

/-- R78: a FREE container's record. -/
def Container.free : Container := ⟨.free, none, 0, 0, 0, 0⟩

/-- R96: the event the placement unit holds for room in the notice queue. -/
inductive PlaceHold where
  /-- the apply at the head of the lookup queue -/
  | apply
  /-- the release operation in progress -/
  | release
  /-- the sweep operation in progress -/
  | sweep
  /-- the container request at the head of the request queue -/
  | request
  /-- the seal's close of the stream in this slot -/
  | seal (slot : Nat)
  /-- a STARVED notice -/
  | starved
  deriving DecidableEq, Repr

/-- The placement unit. -/
structure Place where
  /-- R78. -/
  containers : Table Container
  /-- R81. -/
  openPlaces : Table (Option Nat)
  /-- R89: head first. -/
  freeList : List Nat
  /-- R78: the counts of FULL, RECLAIMABLE and LOST containers. -/
  nFull : Nat
  nReclaimable : Nat
  nLost : Nat
  /-- R96. -/
  held : Option PlaceHold
  deriving DecidableEq, Repr

/-- R98: the sweep walker. -/
structure Walker where
  sweeping : Bool
  position : Nat
  deriving DecidableEq, Repr

/-! ## Mark unit and branch monitor (chapters 7 and 8) -/

/-- R142: what the mark unit hands to the branch monitor of a CLEAN report. -/
structure HandOn where
  stream : Nat
  branch : Nat
  bytes : Nat
  fresh : Nat
  deriving DecidableEq, Repr

/-- The mark unit's own state, beside the slots' mark records and report places. -/
structure MarkUnit where
  /-- R128: the ACK REPORT at the head of the request queue is held. -/
  ackHeld : Bool
  /-- R142: hand-ons held while the monitor holds a SURGE. -/
  handOns : List HandOn
  deriving DecidableEq, Repr

/-- R134: a branch record. -/
structure Branch where
  bound : Option Nat
  phase : BranchPhase
  cold : Nat
  baseline : Nat
  margin : Option Nat
  hold : Bool
  bytesIn : Nat
  newBytes : Nat
  cleanSamples : Nat
  surges : Nat
  relFound : Nat
  relMissed : Nat
  deriving DecidableEq, Repr

/-- R134: a branch record after reset. -/
def Branch.fresh : Branch := ⟨none, .cold, 0, 0, none, false, 0, 0, 0, 0, 0, 0⟩

/-- R146: a SURGE held for room. -/
structure Surge where
  branch : Nat
  sample : Nat
  baseline : Nat
  margin : Nat
  deriving DecidableEq, Repr

/-- The branch monitor. -/
structure Monitor where
  branches : Table Branch
  surgeHeld : Option Surge
  deriving DecidableEq, Repr

/-! ## Record link interface (chapter 9) -/

/-- R156: a request in the request queue. -/
structure Request where
  kind : ReqKind
  stream : Nat
  tag : Nat
  payload : List Byte
  deriving DecidableEq, Repr

/-- R160: the notices of classes 2 to 5, with what each carries (R164). -/
inductive Notice where
  | ready (cause : ResetCause) (valid : Bool) (store : StoreState)
  | fault (before : DevState)
  | linkFault (cause : LinkCause) (counter kind tag : Nat)
  | containerFull (container group fill entries : Nat) (cause : FullCause)
  | containerReclaimable (container group fill : Nat)
  | containerFreed (container group : Nat)
  | starved (group stream length nFull nReclaimable nLost : Nat)
  | reportReady (stream branch id : Nat) (outcome : Outcome)
  | streamClosed (stream branch : Nat) (reason : CloseReason) (nextOffset consumed : Nat)
  | dataRefused (stream : Nat) (reason : Reason) (offset length nextOffset : Nat)
  | surge (branch sample baseline margin : Nat)
  | releaseComplete (tag branch found freed missed : Nat)
  | settingsSaved (values : Settings)
  deriving DecidableEq, Repr

/-- R175: the figures of STATUS. -/
structure StatusFigures where
  dev : DevState
  cause : ResetCause
  settingsValid : Bool
  store : StoreState
  freeList : Nat
  spill : Nat
  entries : Nat
  check : Nat
  length : Nat
  overrun : Nat
  corrected : Nat
  lanes : Nat
  streams : Nat
  fault : Bool
  deriving DecidableEq, Repr

/-- R21: the figures of SNAPSHOT. -/
structure SnapshotFigures where
  state : SlotState
  branch : Nat
  group : Nat
  nextOffset : Nat
  consumed : Nat
  queued : Nat
  laneHolds : Bool
  activeWeight : Nat
  pendingWeight : Option Nat
  activePacing : Nat
  pendingPacing : Option Nat
  phase : MarkPhase
  totals : Totals
  spanNumber : Nat
  spanStart : Nat
  counters : Counters
  outstanding : Nat
  deriving DecidableEq, Repr

/-- R97: the figures of QUERY CONTAINER. -/
structure ContainerFigures where
  container : Nat
  state : ContState
  group : Option Nat
  capacity : Nat
  fill : Nat
  entries : Nat
  live : Nat
  isOpen : Bool
  position : Nat
  spans : Nat
  deriving DecidableEq, Repr

/-- R164: the fields after the first three bytes of a reply. -/
inductive Fields where
  | none
  | status (f : StatusFigures)
  | setSetting (number value : Nat)
  | seed (taken field container duplicate room : Nat)
  | beginService (freeList made : Nat)
  | openStream (slot : Nat) (clamped : List ClampField)
  | mark (offset : Nat)
  | readReport (report : Report) (age : Nat) (waiting : Bool)
  | ackReport (id : Nat) (moved : Bool)
  | retime (clamped : Bool)
  | setPacing (clamped : Bool)
  | snapshot (f : SnapshotFigures)
  | abort (discarded : Nat)
  | durable (state : ContState) (spans : Nat)
  | lost (state : ContState) (spans : Nat)
  | free (freeList : Nat)
  | flush (container fill entries : Nat)
  | queryContainer (f : ContainerFigures)
  | release (queued : Nat)
  | clearHold (before : Bool)
  | resetBaseline (count : Nat)
  | queryBranch (branch : Nat) (record : Branch)
  deriving DecidableEq, Repr

/-- R157. -/
inductive Status where
  | done
  | clamped
  | refused (reason : Reason)
  deriving DecidableEq, Repr

/-- R157: a reply, with the kind code, stream field and tag of its request. -/
structure Reply where
  kind : Nat
  stream : Nat
  tag : Nat
  status : Status
  fields : Fields
  deriving DecidableEq, Repr

/-- R159: where the record being transmitted stands: the head of the reply queue, the oldest notice of a class, or a
stream's made-batch place. -/
inductive TxSource where
  | reply
  | notice (cls : Nat)
  | batch (slot : Nat)
  deriving DecidableEq, Repr

/-- R159: the frame being transmitted. -/
structure Tx where
  source : TxSource
  frame : List Byte
  deriving DecidableEq, Repr

/-- The record link interface. -/
structure Link where
  /-- R158. -/
  credit : Nat
  /-- R155. -/
  outstanding : Nat
  /-- R152: the link fault counters. -/
  checkCount : Nat
  lengthCount : Nat
  overrunCount : Nat
  /-- R152: the pending marks. -/
  checkMark : Bool
  lengthMark : Bool
  overrunMark : Bool
  /-- R152: kind and tag of the last request discarded for OVERRUN. -/
  lastKind : Nat
  lastTag : Nat
  /-- R156: head first. -/
  requests : List Request
  /-- R157: head first. -/
  replies : List Reply
  /-- R160: in order of entry. -/
  notices : List Notice
  /-- R159: the last stream served in class 6. -/
  lastServed : Nat
  /-- R159. -/
  tx : Option Tx
  deriving DecidableEq, Repr

/-! ## The machine -/

/-- The engine's whole state. -/
structure State where
  /-- The commands that are waiting, first in, first out (the model's own field). -/
  pending : List Instr
  /-- The counter that picks the next free value (the model's own field: log entry 2). -/
  freeNext : Nat
  ctl : Ctl
  link : Link
  /-- R1: keyed 1 to 64, resting value `Slot.free`. -/
  slots : Table Slot
  /-- R12: a dropped record's DATA REFUSED notice, held by the stream table for room. -/
  dataHeld : Option Notice
  sched : Sched
  /-- R33: keyed 1 to 4, resting value `Lane.idle`. -/
  lanes : Table Lane
  /-- R36: the WAITING lanes in the order in which they became WAITING. -/
  waitOrder : List Nat
  index : Index
  place : Place
  walker : Walker
  marks : MarkUnit
  monitor : Monitor
  deriving DecidableEq, Repr

/-- Why the machine stops. Nothing in the manual stops the engine for good (its FAULT is a device state that still
takes requests, R176), so no meaning raises a fault. -/
inductive Fault where
  deriving DecidableEq, Repr

/-- Why a command has no meaning. -/
inductive Refusal where
  /-- Raised only by `exec`'s arm of a command that has no meaning yet; safe. No arm is left so. -/
  | notModelled (mnemonic : String)
  deriving DecidableEq, Repr

/-- The record link after a reset (R161). -/
def Link.reset : Link :=
  ⟨0, 0, 0, 0, 0, false, false, false, 0, 0, [], [], [], 64, none⟩

/-- The index unit once index memory has been cleared (R51, R54, R59, R60, R62, R72, R137). -/
def Index.reset : Index := ⟨[], [], 0, 0, [], [], [], none, false, none, 0, none⟩

/-- The placement unit once index memory has been cleared (R78, R81, R89). -/
def Place.reset : Place := ⟨[], [], [], 0, 0, 0, none⟩

/-- The machine right after a power-on reset with a blank settings store (log entry 3): STARTING, cause POWER, the
factory settings, index memory being cleared. -/
def State.reset : State where
  pending := []
  freeNext := 0
  ctl :=
    { dev := .starting, cause := .power, pinHeld := false, clearing := true, readyHeld := false,
      settings := .factory, settingsValid := false, storeCopy := none, storeState := .invalid, programming := none,
      savedHeld := none, corrected := 0, faultCause := false, faultPending := none, resetTaken := false,
      seedWork := none, beginWork := none }
  link := .reset
  slots := []
  dataHeld := none
  sched := ⟨128, 0, 1⟩
  lanes := []
  waitOrder := []
  index := .reset
  place := .reset
  walker := ⟨false, 0⟩
  marks := ⟨false, []⟩
  monitor := ⟨[], none⟩

end Sys2Proof.Machine
end

