-- ==== Sys2Proof/Machine/Operands.lean ====
section
/-! DEFINITION. Reading the operands of a request from its record: big-endian fields, the request kinds and their
payload lengths (R153, R164), the parameter blocks of OPEN (R7), and every bringing-into-range the manual gives
(R8, R20, R23, R131, R170). -/

namespace Sys2Proof.Machine

/-- 00_scope: multi-byte fields are sent most significant byte first. -/
def beNat (bytes : List Byte) : Nat := bytes.foldl (fun n b => n * 256 + b.toNat) 0

/-- The field of `width` bytes at `offset` in a payload. -/
def field (payload : List Byte) (offset width : Nat) : Nat := beNat ((payload.drop offset).take width)

/-- `n` as a field of `width` bytes, most significant first. -/
def beBytes : Nat → Nat → List Byte
  | 0, _ => []
  | width + 1, n => beBytes width (n / 256) ++ [BitVec.ofNat 8 n]

/-- The nearest value in `lo` to `hi`. -/
def clampTo (lo hi v : Nat) : Nat := if v < lo then lo else if hi < v then hi else v

/-! ## Request kinds -/

/-- R153: the code of a request kind. -/
def ReqKind.code : ReqKind → Nat
  | .status => 1 | .reset => 2 | .credit => 3 | .setSetting => 4 | .saveSettings => 5 | .declare => 6 | .seed => 7
  | .beginService => 8 | .openStream => 9 | .data => 10 | .mark => 11 | .seal => 12 | .readReport => 13
  | .ackReport => 14 | .retime => 15 | .setWeight => 16 | .setPacing => 17 | .snapshot => 18 | .close => 19
  | .abort => 20 | .durable => 21 | .lost => 22 | .free => 23 | .flush => 24 | .queryContainer => 25 | .release => 26
  | .clearHold => 27 | .resetBaseline => 28 | .queryBranch => 29

/-- R153: the request kind a code names; none for a notice code, the reply code or any other (R154). -/
def ReqKind.ofCode : Nat → Option ReqKind
  | 1 => some .status | 2 => some .reset | 3 => some .credit | 4 => some .setSetting | 5 => some .saveSettings
  | 6 => some .declare | 7 => some .seed | 8 => some .beginService | 9 => some .openStream | 10 => some .data
  | 11 => some .mark | 12 => some .seal | 13 => some .readReport | 14 => some .ackReport | 15 => some .retime
  | 16 => some .setWeight | 17 => some .setPacing | 18 => some .snapshot | 19 => some .close | 20 => some .abort
  | 21 => some .durable | 22 => some .lost | 23 => some .free | 24 => some .flush | 25 => some .queryContainer
  | 26 => some .release | 27 => some .clearHold | 28 => some .resetBaseline | 29 => some .queryBranch
  | _ => none

/-- R164's table of request payload lengths. A payload too short to hold the count it should carry suits no count.
DATA is handed on whatever its length (R154). -/
def payloadOk (kind : ReqKind) (payload : List Byte) : Bool :=
  let n := payload.length
  match kind with
  | .status | .reset | .saveSettings | .beginService | .readReport | .ackReport | .snapshot | .close | .abort => n == 0
  | .credit | .setWeight | .flush | .clearHold | .queryBranch => n == 1
  | .retime | .setPacing | .durable | .lost | .free | .queryContainer => n == 2
  | .mark => n == 4
  | .setSetting => n == 5
  | .seal => n == 10
  | .declare => n == 12
  | .seed => decide (1 ≤ n) && n == 1 + 28 * field payload 0 1
  | .release => decide (2 ≤ n) && n == 2 + 20 * field payload 1 1
  | .resetBaseline => decide (2 ≤ n) && n == 2 + field payload 0 2
  | .openStream => decide (2 ≤ n)
  | .data => true

/-! ## Lists carried by SEED, RELEASE and RESET BASELINE -/

/-- R164: a fingerprint of 16 bytes. -/
def fpField (payload : List Byte) (offset : Nat) : Fp := BitVec.ofNat 128 (field payload offset 16)

/-- R164: `count` seed entries of 28 bytes. -/
def seedEntries : Nat → List Byte → List SeedEntry
  | 0, _ => []
  | count + 1, p =>
    { fp := fpField p 0, length := field p 16 4, container := field p 20 2, offset := field p 22 4,
      refs := field p 26 2 } :: seedEntries count (p.drop 28)

/-- R164: `count` release items of 20 bytes, the last one marked (R137). -/
def releaseItems (branch tag : Nat) : Nat → List Byte → List ReleaseItem
  | 0, _ => []
  | count + 1, p =>
    { fp := fpField p 0, length := field p 16 4, branch := branch, tag := tag, last := count == 0 } ::
      releaseItems branch tag count (p.drop 20)

/-! ## The parameter blocks of OPEN -/

/-- R7: a parameter block. -/
structure ParamBlock where
  type : Nat
  fields : List Byte
  deriving DecidableEq, Repr

/-- R7: the field length of a block type. -/
def blockLength : Nat → Option Nat
  | 1 => some 18
  | 2 => some 3
  | 3 => some 4
  | _ => none

/-- R7: the blocks of a list that is well formed as far as types, length bytes and its end go; `fuel` bounds their
number. -/
def splitBlocks : Nat → List Byte → Option (List ParamBlock)
  | _, [] => some []
  | fuel + 1, t :: len :: rest =>
    if blockLength t.toNat = some len.toNat ∧ len.toNat ≤ rest.length then
      (splitBlocks fuel (rest.drop len.toNat)).map (fun bs => ⟨t.toNat, rest.take len.toNat⟩ :: bs)
    else none
  | _, _ => none

/-- R7: the parameter-block list of an OPEN, none when it is not well formed. Three types, none twice, make at most
three blocks. -/
def parseBlocks (bytes : List Byte) : Option (List ParamBlock) :=
  match splitBlocks 3 bytes with
  | some bs => if (bs.map ParamBlock.type).Nodup then some bs else none
  | none => none

/-- The fields of the block of a type, if the list holds one. -/
def blockOf (type : Nat) (blocks : List ParamBlock) : Option (List Byte) :=
  (blocks.find? (fun b => b.type == type)).map ParamBlock.fields

/-- A value brought into range, with the field's name when that changed it (R8). -/
def clampNamed (name : ClampField) (lo hi v : Nat) : Nat × List ClampField :=
  (clampTo lo hi v, if clampTo lo hi v = v then [] else [name])

/-- R24: the gear table of a seed. -/
def gearTable (seed : Nat) : List Word32 :=
  (List.range 256).map (fun b => BitVec.ofNat 32 ((b + 1) * 2654435761 + seed))

/-- R22, R24: a profile and its gear table. -/
def mkProfile (lmin ltgt lmax ks kl seed : Nat) : Profile := ⟨lmin, ltgt, lmax, ks, kl, seed, gearTable seed⟩

/-- R23: the profile of a CHUNKING block with the names of the fields clamped, in R7's order; none when the clamped
Lmin exceeds the clamped Lmax. -/
def profileOfBlock (f : List Byte) : Option (Profile × List ClampField) :=
  let lmin := clampNamed .lmin 256 16384 (field f 0 4)
  let lmax := clampNamed .lmax 1024 65536 (field f 8 4)
  let ks := clampNamed .ks 8 20 (field f 12 1)
  if lmax.1 < lmin.1 then none
  else
    let ltgt := clampNamed .ltgt lmin.1 lmax.1 (field f 4 4)
    let kl := clampNamed .kl 6 ks.1 (field f 13 1)
    some (mkProfile lmin.1 ltgt.1 lmax.1 ks.1 kl.1 (field f 14 4), lmin.2 ++ ltgt.2 ++ lmax.2 ++ ks.2 ++ kl.2)

/-- R23: the default profile; Ltgt and kl are brought into line and not named. -/
def profileOfSettings (w : Settings) : Option (Profile × List ClampField) :=
  if w.lmax < w.lmin then none
  else some (mkProfile w.lmin (clampTo w.lmin w.lmax w.ltgt) w.lmax w.ks (clampTo 6 w.ks w.kl) w.seed, [])

/-- What OPEN gathers under R7 and R8. -/
structure OpenValues where
  profile : Profile
  interval : Nat
  lengthCheck : Bool
  weight : Nat
  pacing : Nat
  threshold : Nat
  clamped : List ClampField
  deriving DecidableEq, Repr

/-- R7, R8, R23: the values of an OPEN, from its blocks or the working settings; none when Lmin exceeds Lmax. -/
def gatherOpen (w : Settings) (blocks : List ParamBlock) : Option OpenValues :=
  let profile := match blockOf 1 blocks with
    | some f => profileOfBlock f
    | none => profileOfSettings w
  let checkpoint : (Nat × List ClampField) × (Nat × List ClampField) := match blockOf 2 blocks with
    | some f => (clampNamed .interval 10 3600 (field f 0 2), clampNamed .lengthCheck 0 1 (field f 2 1))
    | none => ((w.interval, []), (w.lengthCheck, []))
  let share : Nat × (Nat × List ClampField) × (Nat × List ClampField) := match blockOf 3 blocks with
    | some f => (field f 0 1, clampNamed .pacingPeriod 1 10000 (field f 1 2), clampNamed .threshold 1 64 (field f 3 1))
    | none => (w.weight, (w.pacing, []), (w.threshold, []))
  profile.map (fun p =>
    { profile := p.1, interval := checkpoint.1.1, lengthCheck := checkpoint.2.1 == 1, weight := share.1,
      pacing := share.2.1.1, threshold := share.2.2.1,
      clamped := p.2 ++ checkpoint.1.2 ++ checkpoint.2.2 ++ share.2.1.2 ++ share.2.2.2 })

/-! ## The settings -/

/-- R169: the range of a setting, by its number. -/
def settingRange : Nat → Option (Nat × Nat)
  | 1 => some (256, 16384)
  | 2 => some (256, 65536)
  | 3 => some (1024, 65536)
  | 4 => some (8, 20)
  | 5 => some (6, 20)
  | 6 => some (0, 4294967295)
  | 7 => some (10, 3600)
  | 8 => some (0, 1)
  | 9 => some (0, 255)
  | 10 => some (1, 10000)
  | 11 => some (1, 64)
  | 12 => some (6, 8)
  | 13 => some (4, 64)
  | 14 => some (0, 1024)
  | 15 => some (1, 1024)
  | _ => none

/-- R169: the settings in setting-number order. -/
def Settings.toList (w : Settings) : List Nat :=
  [w.lmin, w.ltgt, w.lmax, w.ks, w.kl, w.seed, w.interval, w.lengthCheck, w.weight, w.pacing, w.threshold, w.frameExp,
    w.capacityMib, w.margin, w.minSampleMib]

/-- The working settings with the setting of that number at `v`; a number of no setting changes none. -/
def Settings.set (w : Settings) (number v : Nat) : Settings :=
  match number with
  | 1 => { w with lmin := v }
  | 2 => { w with ltgt := v }
  | 3 => { w with lmax := v }
  | 4 => { w with ks := v }
  | 5 => { w with kl := v }
  | 6 => { w with seed := v }
  | 7 => { w with interval := v }
  | 8 => { w with lengthCheck := v }
  | 9 => { w with weight := v }
  | 10 => { w with pacing := v }
  | 11 => { w with threshold := v }
  | 12 => { w with frameExp := v }
  | 13 => { w with capacityMib := v }
  | 14 => { w with margin := v }
  | 15 => { w with minSampleMib := v }
  | _ => w

end Sys2Proof.Machine
end

