-- ==== Sys2Proof/Machine/Ops.lean ====
section
/-! DEFINITION. The named operations over the engine's state that the meanings share: the sparse tables and their
canonical form, the accessors of every table, notices entering the notice queue (R160), taking and answering the
request at the head of the request queue (R156, R157), the counters that saturate, and a reset (R166). -/

namespace Sys2Proof.Machine

/-! ## Sparse tables -/

/-- What a table holds at a number: an unlisted number reads as the table's resting value. -/
def tableGet {α : Type} (rest : α) : Table α → Nat → α
  | [], _ => rest
  | (k, v) :: t, n => if k = n then v else tableGet rest t n

/-- The table with `n` listed as `v`, numbers kept rising. -/
def tablePut {α : Type} : Table α → Nat → α → Table α
  | [], n, v => [(n, v)]
  | (k, w) :: t, n, v =>
    if n < k then (n, v) :: (k, w) :: t
    else if n = k then (n, v) :: t
    else (k, w) :: tablePut t n v

/-- The table with `n` unlisted. -/
def tableDrop {α : Type} (t : Table α) (n : Nat) : Table α := t.filter (fun p => decide (p.1 ≠ n))

/-- The table with `v` at `n`; writing the resting value removes the listing. -/
def tableSet {α : Type} [DecidableEq α] (rest : α) (t : Table α) (n : Nat) (v : α) : Table α :=
  if v = rest then tableDrop t n else tablePut t n v

/-- The canonical form: numbers strictly rising, and nothing listed at its resting value. -/
def tableWf {α : Type} [DecidableEq α] (rest : α) (t : Table α) : Bool :=
  decide (t.Pairwise (fun p q => p.1 < q.1)) && t.all (fun p => decide (p.2 ≠ rest))

/-! ## Accessors -/

/-- R1. -/
def State.slot (s : State) (n : Nat) : Slot := tableGet Slot.free s.slots n
/-- R1. -/
def State.setSlot (s : State) (n : Nat) (v : Slot) : State := { s with slots := tableSet Slot.free s.slots n v }
/-- R33. -/
def State.lane (s : State) (n : Nat) : Lane := tableGet Lane.idle s.lanes n
/-- R33. -/
def State.setLane (s : State) (n : Nat) (v : Lane) : State := { s with lanes := tableSet Lane.idle s.lanes n v }
/-- R51. -/
def State.bucket (s : State) (b : Nat) : Bucket := tableGet Bucket.empty s.index.buckets b
/-- R51. -/
def State.setBucket (s : State) (b : Nat) (v : Bucket) : State :=
  { s with index := { s.index with buckets := tableSet Bucket.empty s.index.buckets b v } }
/-- R78. -/
def State.container (s : State) (c : Nat) : Container := tableGet Container.free s.place.containers c
/-- R78. -/
def State.setContainer (s : State) (c : Nat) (v : Container) : State :=
  { s with place := { s.place with containers := tableSet Container.free s.place.containers c v } }
/-- R81. -/
def State.openPlace (s : State) (g : Nat) : Option Nat := tableGet none s.place.openPlaces g
/-- R81. -/
def State.setOpenPlace (s : State) (g : Nat) (v : Option Nat) : State :=
  { s with place := { s.place with openPlaces := tableSet none s.place.openPlaces g v } }
/-- R134. -/
def State.branch (s : State) (b : Nat) : Branch := tableGet Branch.fresh s.monitor.branches b
/-- R134. -/
def State.setBranch (s : State) (b : Nat) (v : Branch) : State :=
  { s with monitor := { s.monitor with branches := tableSet Branch.fresh s.monitor.branches b v } }
/-- The slots that hold a stream, in ascending order. -/
def State.slotNumbers (s : State) : List Nat := s.slots.map Prod.fst

/-- A counter that stays at its greatest value once it reaches it. -/
def satAdd (max n k : Nat) : Nat := min max (n + k)

/-- R76: corrected errors met by a command's reads. -/
def State.noteCorrected (s : State) (k : Nat) : State :=
  { s with ctl := { s.ctl with corrected := satAdd Config.counterMax s.ctl.corrected k } }

/-! ## The notice queue -/

/-- R160: the notice queue has room. -/
def State.hasRoom (s : State) : Bool := decide (s.link.notices.length < Config.noticeMax)

/-- R160: a notice enters the notice queue. Used only where `hasRoom` has been tested. -/
def State.enter (s : State) (n : Notice) : State :=
  { s with link := { s.link with notices := s.link.notices ++ [n] } }

/-! ## Requests and replies -/

/-- R157: a reply joins the tail of the reply queue. -/
def State.pushReply (s : State) (r : Reply) : State :=
  { s with link := { s.link with replies := s.link.replies ++ [r] } }

/-- R156: the request at the head leaves the request queue. -/
def State.popRequest (s : State) : State := { s with link := { s.link with requests := s.link.requests.drop 1 } }

/-- R157: the owner answers the request at the head, which is thereby taken. -/
def State.answer (s : State) (r : Request) (status : Status) (fields : Fields) : State :=
  (s.popRequest).pushReply ⟨r.kind.code, r.stream, r.tag, status, fields⟩

/-- R157: a REFUSED reply carries no further fields. -/
def State.refuse (s : State) (r : Request) (reason : Reason) : State := s.answer r (.refused reason) .none

/-- R155: one outstanding request fewer. -/
def State.lessOutstanding (s : State) : State :=
  { s with link := { s.link with outstanding := s.link.outstanding - 1 } }

/-! ## The settings store and resets -/

/-- R171: what the store holds when a reset comes: programming broken off leaves it with no valid copy. -/
def Ctl.storeAtReset (c : Ctl) : Option Settings := if c.programming.isSome then none else c.storeCopy

/-- R169: the load of the working settings at a reset. -/
def loadedSettings : Option Settings → Settings
  | some w => w
  | none => Settings.factory

/-- R166, R5, R33, R39, R60, R81, R89, R98, R101, R134, R137, R161, R169: a reset of the given cause, with the pin as
given. The tables in index memory keep their contents until the clearing completes (R51, R168; log entry 4), and the
clearing begins unless the pin still holds the engine in reset. -/
def State.resetTo (s : State) (cause : ResetCause) (pin : Bool) : State :=
  let stored := s.ctl.storeAtReset
  let valid := stored.isSome
  { State.reset with
    pending := s.pending
    freeNext := s.freeNext
    ctl := { State.reset.ctl with
      cause := cause
      pinHeld := pin
      clearing := !pin
      settings := loadedSettings stored
      settingsValid := valid
      storeCopy := stored
      storeState := if valid then .valid else .invalid }
    sched := ⟨2 ^ (loadedSettings stored).frameExp, 0, 1⟩
    index := { Index.reset with buckets := s.index.buckets, spill := s.index.spill }
    place := { Place.reset with containers := s.place.containers } }

end Sys2Proof.Machine
end

