-- ==== Sys2Proof/Machine/Flags.lean ====
section
/-! DEFINITION. The conditions the manual reads off the state rather than keeps as flags: which owner can take the
request at the head (R156), which slot state takes which stream request (R4), when a stream's last batch and its
STREAM CLOSED are due (R16, R18, R110, R111), and when a stream is eligible for a grant (R41). -/

namespace Sys2Proof.Machine

/-- R165: the device is in SERVICE, and the engine is not held in reset. -/
def State.inService (s : State) : Bool := s.ctl.dev == .service && !s.ctl.pinHeld

/-- R176: the device is in FAULT, and the engine is not held in reset. -/
def State.inFault (s : State) : Bool := s.ctl.dev == .fault && !s.ctl.pinHeld

/-- R37, R41: a lane holds the stream of slot `n`, from its grant until its context is stored back. -/
def State.laneHolds (s : State) (n : Nat) : Bool :=
  s.lanes.any (fun p => match p.2.work with | some w => w.slot == n | none => false)

/-- R33: the number of lanes that are not IDLE. -/
def State.lanesWorking (s : State) : Nat := (s.lanes.filter (fun p => p.2.state != .idle)).length

/-- R175: the number of slots that are not FREE. -/
def State.streamsOpen (s : State) : Nat := (s.slots.filter (fun p => p.2.state != .free)).length

/-! ## Streams -/

/-- R110, R111: the conditions of the stream's last batch hold, and it has not been made. -/
def State.lastBatchDue (s : State) (n : Nat) : Bool :=
  let sl := s.slot n
  !sl.finalMade && sl.reserved == 0 &&
    match sl.state with
    | .draining => sl.endConsumed
    | .aborting => !s.laneHolds n
    | _ => false

/-- R16, R18, R128: the last batch has been transmitted and no report stands in the report places or is held, so that
STREAM CLOSED is due. -/
def Slot.closeDue (sl : Slot) : Bool :=
  (sl.state == .draining || sl.state == .aborting) && sl.finalMade && sl.madeBatch.isNone &&
    sl.reportSlot.isNone && sl.waiting.isNone && sl.heldReport.isNone

/-- R13, R120: an entry that is a MARK marker. -/
def Entry.isMark : Entry → Bool
  | .mark _ => true
  | _ => false

/-- The work of the lane that holds the stream, if one does. -/
def State.workOf (s : State) (n : Nat) : Option Work :=
  s.lanes.findSome? (fun p => match p.2.work with | some w => if w.slot = n then some w else none | none => none)

/-- R120: a MARK marker of the stream still waits unconsumed in its input queue or in a lane. -/
def State.markerWaits (s : State) (n : Nat) : Bool :=
  let q := (s.slot n).queue
  let q := match s.workOf n with
    | some w => if w.markerDone then q.drop 1 else q
    | none => q
  q.any Entry.isMark

/-- R4: the states in which a stream request is taken (OPEN meets check 1 alone, and is not asked here). -/
def takenIn (kind : ReqKind) (state : SlotState) : Bool :=
  match kind, state with
  | _, .free => false
  | .data, st => st == .active
  | .mark, st => st == .active
  | .close, st => st == .active
  | .seal, st => st != .aborting
  | .retime, st => st != .aborting
  | .setWeight, st => st != .aborting
  | .abort, st => st != .aborting
  | _, _ => true

/-- R2: the stream field names a slot. -/
def slotInRange (n : Nat) : Bool := decide (1 ≤ n ∧ n ≤ Config.slotCount)

/-- R2: the addressing checks in order; the reason of the first that fails. -/
def State.streamCheck (s : State) (r : Request) : Option Reason :=
  if s.ctl.dev ≠ .service then some .badState
  else if slotInRange r.stream = false then some .range
  else if (s.slot r.stream).state = .free then some .noStream
  else if takenIn r.kind (s.slot r.stream).state = false then some .badState
  else none

/-! ## Owners that hold an event -/

/-- R128, R142: the mark unit holds a report, an ACK REPORT or a hand-on. -/
def State.markUnitHolds (s : State) : Bool :=
  s.marks.ackHeld || !s.marks.handOns.isEmpty || s.slots.any (fun p => p.2.heldReport.isSome)

/-- R16, R160: the stream table holds a STREAM CLOSED; in FAULT it does not wait on it (R162). -/
def State.streamTableHolds (s : State) : Bool := s.ctl.dev != .fault && s.slots.any (fun p => p.2.closeDue)

/-- R156, R160, R162: whether the request at the head is handed on now, being of that kind: no request is while a DATA
REFUSED is held (R12), in FAULT too, and then it is the owner's own matter. -/
def State.ownerFree (s : State) (kind : ReqKind) : Bool :=
  let fault := s.ctl.dev == .fault
  s.dataHeld.isNone && match kind with
  | .status | .reset | .setSetting | .saveSettings | .declare | .seed | .beginService =>
    !s.ctl.resetTaken && s.ctl.savedHeld.isNone && s.ctl.seedWork.isNone && s.ctl.beginWork.isNone
  | .credit => true
  | .openStream | .data | .setWeight | .setPacing | .snapshot | .close | .abort => !s.streamTableHolds
  | .mark | .seal | .readReport | .ackReport | .retime => !s.streamTableHolds && (fault || !s.markUnitHolds)
  | .durable | .lost | .free | .flush | .queryContainer => fault || s.place.held.isNone
  | .release | .clearHold | .resetBaseline | .queryBranch => fault || s.monitor.surgeHeld.isNone

/-- R156: the request of that kind at the head of the request queue, if its owner takes it now. -/
def State.headRequest (s : State) (kind : ReqKind) : Option Request :=
  match s.link.requests with
  | r :: _ => if r.kind = kind ∧ s.ctl.pinHeld = false ∧ s.ownerFree kind = true then some r else none
  | [] => none

/-! ## Grants -/

/-- R42: the group of the stream is placement-blocked. -/
def State.groupBlocked (s : State) (n : Nat) : Bool :=
  match s.index.starving with
  | some g => (s.slot n).group == some g
  | none => false

/-- R41: the places of a slot's verdict queue that are in use. -/
def Slot.placesUsed (sl : Slot) : Nat := sl.filled.length + sl.reserved

/-- R41: the six conditions of a grant. -/
def State.eligible (s : State) (n : Nat) : Bool :=
  let sl := s.slot n
  (sl.state == .active || sl.state == .draining) && !sl.queue.isEmpty && !s.laneHolds n &&
    decide (sl.placesUsed + Config.grantReserve ≤ Config.verdictPlaces) &&
    (match sl.current with
      | some sp => decide (sp.deps.length + sp.outstanding + Config.grantReserve ≤ Config.depMax)
      | none => false) &&
    !s.groupBlocked n

end Sys2Proof.Machine
end

