-- ==== Sys2Proof/Machine/Monitor.lean ====
section
/-! DEFINITION. The branch monitor (chapter 8): samples, baselines and surges, and the three branch requests CLEAR
HOLD, RESET BASELINE and QUERY BRANCH. RELEASE is with the index unit in Release.lean. -/

namespace Sys2Proof.Machine

/-- R143: the share of a span's bytes that were not already held, in 1,024ths. -/
def sampleOf (fresh bytes : Nat) : Nat := fresh * 1024 / bytes

/-- R144: a sample of a COLD branch. -/
def Branch.coldSample (b : Branch) (sample : Nat) : Branch :=
  { b with
    baseline := (b.baseline * b.cold + sample) / (b.cold + 1)
    phase := if b.cold = 3 then .hot else .cold
    cold := if b.cold = 3 then 0 else b.cold + 1 }

/-- R145: whether a sample of a HOT branch is a surge. -/
def Branch.surgesAt (b : Branch) (sample : Nat) : Bool := decide (b.baseline + b.margin.getD 0 < sample)

/-- R146: the surge takes effect with its notice's entry into the notice queue. -/
def State.enterSurge (s : State) (g : Surge) : State :=
  let b := s.branch g.branch
  (s.setBranch g.branch { b with hold := true, surges := satAdd Config.counterMax b.surges 1 }).enter
    (.surge g.branch g.sample g.baseline g.margin)

/-- R142: a hand-on raises the branch's byte totals. -/
def Branch.addBytes (b : Branch) (h : HandOn) : Branch :=
  { b with
    bytesIn := satAdd Config.byteTotalMax b.bytesIn h.bytes
    newBytes := satAdd Config.byteTotalMax b.newBytes h.fresh }

/-- R142 to R146: the monitor takes the hand-on of a CLEAN report. The byte totals and the clean-samples total rise at
the hand-on; a surge's hold flag and surges total wait for its notice's room (log entry 18). -/
def State.monitorTake (s : State) (h : HandOn) : State :=
  let b := (s.branch h.branch).addBytes h
  if h.bytes < s.ctl.settings.minSampleMib * Config.mib then s.setBranch h.branch b
  else
    let sample := sampleOf h.fresh h.bytes
    let b := { b with cleanSamples := satAdd Config.counterMax b.cleanSamples 1 }
    match b.phase with
    | .cold => s.setBranch h.branch (b.coldSample sample)
    | .hot =>
      if b.surgesAt sample then
        let s := s.setBranch h.branch b
        let g : Surge := ⟨h.branch, sample, b.baseline, b.margin.getD 0⟩
        if s.hasRoom then s.enterSurge g
        else { s with monitor := { s.monitor with surgeHeld := some g } }
      else s.setBranch h.branch { b with baseline := (7 * b.baseline + sample) / 8 }

/-- R142: the monitor takes hand-ons one at a time, and leaves with the mark unit those that a held SURGE stops. -/
def State.takeHandOns (s : State) : List HandOn → State
  | [] => s
  | h :: t =>
    if s.monitor.surgeHeld.isSome then { s with marks := { s.marks with handOns := s.marks.handOns ++ (h :: t) } }
    else (s.monitorTake h).takeHandOns t

/-- R142: the mark unit hands a CLEAN report on, or holds the hand-on while the monitor holds a SURGE. -/
def State.handOn (s : State) (h : HandOn) : State :=
  if s.monitor.surgeHeld.isSome || !s.marks.handOns.isEmpty then
    { s with marks := { s.marks with handOns := s.marks.handOns ++ [h] } }
  else s.monitorTake h

/-! ## Branch requests -/

/-- R147. -/
def takeClearHold (r : Request) (s : State) : State :=
  if s.ctl.dev ≠ .service then s.refuse r .badState
  else
    let n := field r.payload 0 1
    let b := s.branch n
    (s.setBranch n { b with hold := false }).answer r .done (.clearHold b.hold)

/-- R147: CLEAR HOLD is taken by the branch monitor. -/
def execClearHold (s : State) : Host.Outcome State Fault Refusal :=
  match s.headRequest .clearHold with
  | some r => .next (takeClearHold r s)
  | none => .next s

/-- R148: a record returned to COLD. -/
def Branch.resetBaseline (b : Branch) : Branch := { b with phase := .cold, cold := 0, baseline := 0 }

/-- R148: the branches a RESET BASELINE names. -/
def baselineList (payload : List Byte) : List Nat := (payload.drop 2).map (fun b => b.toNat)

/-- R148. -/
def takeResetBaseline (r : Request) (s : State) : State :=
  if s.ctl.dev ≠ .service then s.refuse r .badState
  else
    let names := baselineList r.payload
    if names = [] ∨ ¬ names.Nodup then s.refuse r .range
    else
      (names.foldl (fun s n => s.setBranch n (s.branch n).resetBaseline) s).answer r .done
        (.resetBaseline names.length)

/-- R148: RESET BASELINE is taken by the branch monitor. -/
def execResetBaseline (s : State) : Host.Outcome State Fault Refusal :=
  match s.headRequest .resetBaseline with
  | some r => .next (takeResetBaseline r s)
  | none => .next s

/-- R135. -/
def takeQueryBranch (r : Request) (s : State) : State :=
  if s.ctl.dev ≠ .service then s.refuse r .badState
  else
    let n := field r.payload 0 1
    s.answer r .done (.queryBranch n (s.branch n))

/-- R135: QUERY BRANCH is taken by the branch monitor. -/
def execQueryBranch (s : State) : Host.Outcome State Fault Refusal :=
  match s.headRequest .queryBranch with
  | some r => .next (takeQueryBranch r s)
  | none => .next s

/-! ## A held SURGE -/

/-- The hand-ons of the streams named, in that order, and then the others in the order they came to be held. -/
def orderHandOns (order : List Nat) (hs : List HandOn) : List HandOn :=
  (order.eraseDups.flatMap (fun n => hs.filter (fun h => h.stream == n))) ++
    hs.filter (fun h => !order.contains h.stream)

/-- R146, R142: a held SURGE enters the notice queue, and the monitor goes on with the hand-ons that wait. -/
def execHeldSurgeEntry (order : List Nat) (s : State) : Host.Outcome State Fault Refusal :=
  match s.monitor.surgeHeld with
  | some g =>
    if s.inService && s.hasRoom then
      let s := { s with monitor := { s.monitor with surgeHeld := none } }.enterSurge g
      .next ({ s with marks := { s.marks with handOns := [] } }.takeHandOns (orderHandOns order s.marks.handOns))
    else .next s
  | none => .next s

end Sys2Proof.Machine
end

