-- ==== Sys2Proof/Machine/Containers.lean ====
section
/-! DEFINITION. The placement unit's operations on containers that other blocks share (chapter 5): closing to FULL,
freeing, the accounting of a removed index entry, and the removal of a container from dependency sets. -/

namespace Sys2Proof.Machine

/-- R96: the placement unit holds an event for room. -/
def State.holdPlace (s : State) (h : PlaceHold) : State := { s with place := { s.place with held := some h } }

/-- R96: the placement unit holds nothing any longer. -/
def State.unholdPlace (s : State) : State := { s with place := { s.place with held := none } }

/-- R84, R86, R87: an OPEN container is closed to FULL, with its CONTAINER FULL notice. The caller has tested the
notice queue's room. -/
def State.closeToFull (s : State) (c : Nat) (cause : FullCause) : State :=
  let k := s.container c
  let g := k.group.getD 0
  let s := (s.setContainer c { k with state := .full }).setOpenPlace g none
  { s with place := { s.place with nFull := s.place.nFull + 1 } }.enter (.containerFull c g k.fill k.entries cause)

/-- R69: a BLOCKED head becomes PENDING again. -/
def unblockHead : List QLookup → List QLookup
  | q :: t => (if q.state = .blocked then { q with state := .pending } else q) :: t
  | [] => []

/-- R89, R69: a container number joins the tail of the free list, and a BLOCKED head becomes PENDING. -/
def State.joinFreeList (s : State) (c : Nat) : State :=
  { s with
    place := { s.place with freeList := s.place.freeList ++ [c] }
    index := { s.index with lookups := unblockHead s.index.lookups } }

/-- R78, R92, R94: a container becomes FREE and its number joins the free list. -/
def State.freeContainer (s : State) (c : Nat) : State := (s.setContainer c .free).joinFreeList c

/-- R100: with no container LOST the walker becomes IDLE, unless a sweep operation is in progress. -/
def State.restWalker (s : State) : State :=
  match s.index.other with
  | some (.sweep _) => s
  | _ => if s.place.nLost = 0 then { s with walker := { s.walker with sweeping := false } } else s

/-- R94: a LOST container becomes FREE, with its CONTAINER FREED notice. The caller has tested room. -/
def State.freeLost (s : State) (c : Nat) : State :=
  let g := (s.container c).group.getD 0
  let s := (s.freeContainer c).enter (.containerFreed c g)
  { s with place := { s.place with nLost := s.place.nLost - 1 } }.restWalker

/-- R91: a DURABLE container with no entries becomes RECLAIMABLE, with its notice. The caller has tested room. -/
def State.reclaim (s : State) (c : Nat) : State :=
  let k := s.container c
  let s := s.setContainer c { k with state := .reclaimable }
  { s with place := { s.place with nReclaimable := s.place.nReclaimable + 1 } }.enter
    (.containerReclaimable c (k.group.getD 0) k.fill)

/-- R79, R91, R94: whether the removal of one entry of the container makes a notice. -/
def State.removalNotice (s : State) (c : Nat) : Bool :=
  let k := s.container c
  k.entries - 1 == 0 && (k.state == .durable || k.state == .lost)

/-- R79, R91, R94: the accounting of the removal of an entry of that length. The caller has tested room where
`removalNotice` holds. -/
def State.account (s : State) (c length : Nat) : State :=
  let k := s.container c
  let s := s.setContainer c { k with entries := k.entries - 1, live := k.live - length }
  if k.entries - 1 = 0 then
    match k.state with
    | .durable => s.reclaim c
    | .lost => s.freeLost c
    | _ => s
  else s

/-! ## Dependency sets -/

/-- Every span of the slot, changed. -/
def Slot.mapSpans (sl : Slot) (f : Span → Span) : Slot :=
  { sl with current := sl.current.map f, ended := sl.ended.map f }

/-- R114: a live span whose dependency set holds the container. -/
def Span.holds (c : Nat) (sp : Span) : Bool := !sp.retired && sp.deps.contains c

/-- The number of live spans of a slot whose sets hold the container. -/
def Slot.spansHolding (c : Nat) (sl : Slot) : Nat :=
  (if sl.current.any (Span.holds c) then 1 else 0) + (if sl.ended.any (Span.holds c) then 1 else 0)

/-- R97: the number of live spans, over all streams, whose sets hold the container. -/
def State.spansHolding (s : State) (c : Nat) : Nat := (s.slots.map (fun p => p.2.spansHolding c)).sum

/-- R90: the container leaves the set of a live span that holds it. -/
def Span.dropDep (c : Nat) (sp : Span) : Span :=
  if sp.holds c then { sp with deps := sp.deps.filter (fun d => d != c) } else sp

/-- R93, R118: a live span that holds the container is tainted as the container leaves its set. -/
def Span.taintDep (c : Nat) (sp : Span) : Span :=
  if sp.holds c then
    { sp with
      deps := sp.deps.filter (fun d => d != c)
      tainted := true
      lostDeps := satAdd 65535 sp.lostDeps 1 }
  else sp

/-- Every slot, changed by a function that leaves a FREE slot FREE. -/
def State.mapSlots (s : State) (f : Slot → Slot) : State := { s with slots := s.slots.map (fun p => (p.1, f p.2)) }

end Sys2Proof.Machine
end

