-- ==== Sys2Proof/Machine/Marks.lean ====
section
/-! DEFINITION. The mark unit (chapter 7): spans, marks, reports and their places, and the requests MARK, SEAL, READ
REPORT, ACK REPORT and RETIME are built on these. -/

namespace Sys2Proof.Machine

/-! ## Placing a report -/

/-- R127, R142: what is handed to the branch monitor of a CLEAN report. -/
def Report.handOn (r : Report) : HandOn :=
  ⟨r.stream, r.branch, r.counters.bytes, r.counters.newBytes + r.counters.passBytes⟩

/-- R127: a report enters the report slot with age 0 and its REPORT READY; a CLEAN one is handed on. The caller has
tested room. -/
def State.enterReport (s : State) (n : Nat) (rep : Report) : State :=
  let s := (s.setSlot n { s.slot n with reportSlot := some (rep, 0) }).enter
    (.reportReady rep.stream rep.branch rep.id rep.outcome)
  if rep.outcome = .clean then s.handOn rep.handOn else s

/-- R127, R128: a report just made goes to the report slot, to the waiting place, or is held for room. -/
def State.placeReport (s : State) (n : Nat) (rep : Report) : State :=
  let sl := s.slot n
  if sl.reportSlot.isSome then s.setSlot n { sl with waiting := some rep }
  else if s.hasRoom then s.enterReport n rep
  else s.setSlot n { sl with heldReport := some rep }

/-! ## Making a report -/

/-- R124: the length match. -/
def lengthMatchOf (start : Nat) : Option Nat → Option Nat → LengthMatch
  | some e, some x => if x = e - start then .matched else .different
  | _, _ => .unknown

/-- R124: a report made from the mark's span as it stands. -/
def mkReport (n : Nat) (sl : Slot) (sp : Span) (outcome : Outcome) (elapsed : Nat) : Report :=
  { stream := n, branch := sl.branch.getD 0, id := sl.mark.id.getD 0, outcome := outcome, spanNumber := sp.number,
    start := sp.start, endOff := sp.endOff, expected := sl.mark.sealLen,
    lengthMatch := lengthMatchOf sp.start sp.endOff sl.mark.sealLen, counters := sp.counters, tainted := sp.tainted,
    lostDeps := sp.lostDeps, outstanding := sp.outstanding, depsLeft := sp.deps.length, elapsed := elapsed }

/-- R124: the outcome of a completed mark. -/
def completionOutcome (sl : Slot) (sp : Span) : Outcome :=
  if sp.tainted then .tainted
  else if sl.lengthCheck = some true ∧ lengthMatchOf sp.start sp.endOff sl.mark.sealLen = .different then .mismatch
  else .clean

/-! ## Retiring and dropping -/

/-- R115: retirement empties the set and sets the flag. -/
def Span.retire (sp : Span) : Span := { sp with deps := [], retired := true }

/-- R115: an ended span that is retired is kept only for its outstanding lookups. -/
def keepEnded (sp : Span) : Option Span := if sp.retired ∧ sp.outstanding = 0 then none else some sp

/-- R115, R126, R18: the mark's span is retired and the mark record returns to phase NONE. -/
def Slot.endMark (sl : Slot) : Slot :=
  if sl.mark.cut then { sl with ended := sl.ended.bind (fun sp => keepEnded sp.retire), mark := .none_ }
  else { sl with current := sl.current.map Span.retire, mark := .none_ }

/-- The mark's span: the ended span once the cut is made, the current span before (R115, R120). -/
def Slot.markSpan (sl : Slot) : Option Span := if sl.mark.cut then sl.ended else sl.current

/-! ## The seal's close and completion -/

/-- R122: the mark is SEALING and cut, and its span has no lookup outstanding. -/
def Slot.sealReady (sl : Slot) : Bool :=
  sl.mark.phase == .sealing && sl.mark.cut &&
    match sl.ended with
    | some sp => sp.outstanding == 0
    | none => false

/-- R122, R87: the OPEN containers of the sealing span's set are closed one after another, each with its notice; with
no room the placement unit holds the close, and while it holds another event the close waits (R96). -/
def State.closeSealed (s : State) (n : Nat) : List Nat → State
  | [] => s
  | c :: cs =>
    if (s.container c).state = .open_ then
      if s.place.held.isSome then s
      else if s.hasRoom then (s.closeToFull c .seal).closeSealed n cs
      else s.holdPlace (.seal n)
    else s.closeSealed n cs

/-- R123: the mark completes. -/
def State.completeMark (s : State) (n : Nat) : State :=
  let sl := s.slot n
  match sl.ended with
  | some sp =>
    let rep := mkReport n sl sp (completionOutcome sl sp) sl.mark.timer
    (s.setSlot n { sl with ended := none, mark := .none_ }).placeReport n rep
  | none => s

/-- R123: the completion conditions hold. -/
def Slot.completable (sl : Slot) : Bool :=
  sl.sealReady &&
    match sl.ended with
    | some sp => sp.deps.isEmpty
    | none => false

/-- R122, R123: the close and the completion of the stream's mark, whichever is due. -/
def State.checkMark (s : State) (n : Nat) : State :=
  let sl := s.slot n
  let s := if sl.sealReady then s.closeSealed n (match sl.ended with | some sp => sp.deps | none => []) else s
  if (s.slot n).completable then s.completeMark n else s

/-- The marks of several streams checked, one after another. -/
def State.checkMarks (s : State) : List Nat → State
  | [] => s
  | n :: ns => (s.checkMark n).checkMarks ns

/-- R126, R18: a seal's close of the stream's mark that waits for room is abandoned, and the placement unit goes on
with the seals' closes that wait behind it. -/
def State.abandonSeal (s : State) (n : Nat) : State :=
  if s.place.held = some (.seal n) then s.unholdPlace.checkMarks s.slotNumbers else s

/-- R126: the mark ends in VIOLATION. Its report is placed before the seals' closes go on that waited behind its own
(DESIGN CHOICE, log entry 48). -/
def State.violate (s : State) (n : Nat) : State :=
  let sl := s.slot n
  match sl.markSpan with
  | some sp =>
    let rep := mkReport n sl sp .violation sl.mark.limit
    ((s.setSlot n sl.endMark).placeReport n rep).abandonSeal n
  | none => s

/-- R18, R128, R142, R149: the hand-ons of a stream that wait for the branch monitor are discarded with its reports
(log entry 39). -/
def State.dropHandOns (s : State) (n : Nat) : State :=
  { s with marks := { s.marks with handOns := s.marks.handOns.filter (fun h => h.stream != n) } }

/-- R18: at the last batch of an aborted stream its report places, any held report and any hand-on that waits are
emptied and an open mark is dropped. -/
def State.discardReports (s : State) (n : Nat) : State :=
  let sl := s.slot n
  let sl := if sl.mark.phase = .none then sl else sl.endMark
  ((s.dropHandOns n).setSlot n { sl with reportSlot := none, waiting := none, heldReport := none }).abandonSeal n

/-- R115: a MARK marker is consumed at offset `m`: the current span ends and a new one begins. -/
def Slot.startSpan (sl : Slot) (m : Nat) : Slot :=
  match sl.current with
  | some sp =>
    let done := { sp with endOff := some m }
    if sl.mark.phase = .none then { sl with ended := keepEnded done, current := some (.fresh (1 - sp.number) m) }
    else
      { sl with
        ended := some done
        current := some (.fresh (1 - sp.number) m)
        mark := { sl.mark with cut := true } }
  | none => sl

end Sys2Proof.Machine
end

