-- ==== Sys2Proof/Machine/Verdicts.lean ====
section
/-! DEFINITION. Verdict batches and the end of a stream (chapter 6, and R16, R18): calling for a batch, making it,
the last batch, and STREAM CLOSED. -/

namespace Sys2Proof.Machine

/-- R105: the pacing counter clears, and a pending period becomes active. -/
def Slot.clearPacing (sl : Slot) : Slot :=
  { sl with
    pacingCounter := 0
    activePacing := match sl.pendingPacing with | some p => some p | none => sl.activePacing
    pendingPacing := none }

/-- R107, R108, R110, R111: a batch is made of every filled verdict; it is the last batch if those conditions hold,
and the last batch of an ABORTING stream discards its reports (R18). Its consumed offset is the stream's as R37 keeps
it, which rises when a lane finishes an entry, so that a verdict on a chunk cut earlier in that entry can be in a
batch whose consumed offset lies below the chunk's end, although R108 says that it never does (DESIGN CHOICE, log
entry 42). Which batch it is is judged at its making. A FINAL batch that was called for behind a made batch, and whose
DRAINING stream was then aborted while a lane still stands at the END marker, is thus an ordinary one, possibly of count
0, and the FINAL and ABORTED one follows: R112 has a due batch be ordinary while the conditions of R111 do not hold,
where R110 has the batch made for that call be FINAL whenever it is made (DESIGN CHOICE, log entry 46). -/
def State.makeBatch (s : State) (n : Nat) : State :=
  let sl := s.slot n
  let last := s.lastBatchDue n
  let aborted := last && sl.state == .aborting
  let batch : Batch := ⟨sl.consumed, last, aborted, sl.filled⟩
  let s := s.setSlot n
    { sl.clearPacing with filled := [], madeBatch := some batch, due := false, finalMade := sl.finalMade || last }
  if aborted then s.discardReports n else s

/-- R107: a batch is called for. After its last batch the stream makes no further one (R110). -/
def State.callBatch (s : State) (n : Nat) : State :=
  let sl := s.slot n
  if sl.finalMade then s
  else if sl.madeBatch.isNone then s.makeBatch n
  else s.setSlot n { sl with due := true }

/-- R1, R10, R16: the slot becomes FREE and its branch unbound; a lane that still stands at the stream's END marker
lets it go (log entry 8). -/
def State.freeSlot (s : State) (n : Nat) : State :=
  let b := (s.slot n).branch.getD 0
  let s := (s.setBranch b { s.branch b with bound := none }).setSlot n .free
  [1, 2, 3, 4].foldl
    (fun s l =>
      match (s.lane l).work with
      | some w => if w.slot = n then { s.setLane l .idle with waitOrder := s.waitOrder.filter (fun k => k != l) } else s
      | none => s) s

/-- R16, R18: the STREAM CLOSED notice of a slot. -/
def closedNotice (n : Nat) (sl : Slot) : Notice :=
  .streamClosed n (sl.branch.getD 0) (if sl.state = .aborting then .aborted else .closed) sl.nextOffset sl.consumed

/-- R16, R18: STREAM CLOSED is made if it is due and has room, and with its entry the slot becomes FREE; without room
the slot stays as it is and the notice waits. -/
def State.tryClose (s : State) (n : Nat) : State :=
  if s.inService && (s.slot n).closeDue && s.hasRoom then (s.enter (closedNotice n (s.slot n))).freeSlot n else s

/-- R16, R160: a waiting STREAM CLOSED enters the notice queue. -/
def execHeldStreamClosedEntry (slot : Nat) (s : State) : Host.Outcome State Fault Refusal :=
  .next (s.tryClose slot)

end Sys2Proof.Machine
end

