-- ==== Sys2Proof/Machine/Index.lean ====
section
/-! DEFINITION. The fingerprint index (chapter 4): bucket numbers, the search, insertion and removal of entries, the
claims on the index-memory port and its arbiter, the grant and the completion of a lookup's read. -/

namespace Sys2Proof.Machine

/-! ## Keys, buckets, search -/

/-- R53: the first three bytes of the fingerprint, divided by 4 and rounded down. -/
def bucketOf (fp : Fp) : Nat := fp.toNat / 2 ^ 104 / 4

/-- R54: the key of the spill table, fingerprint and length as one number; lengths lie below 2^32. -/
def spillKey (fp : Fp) (length : Nat) : Nat := fp.toNat * 2 ^ 32 + length

/-- R55: an entry matches a key. -/
def IndexEntry.hasKey (e : IndexEntry) (fp : Fp) (length : Nat) : Bool := e.fp == fp && e.length == length

/-- R54: what the spill table holds for a key. -/
def State.spillAt (s : State) (fp : Fp) (length : Nat) : Option SpillEntry :=
  tableGet none s.index.spill (spillKey fp length)

/-- R55, R64: the search for a key in a bucket, and in the spill table when the bucket's spill count is above 0. -/
def State.search (s : State) (b : Nat) (fp : Fp) (length : Nat) : ReadResult :=
  let k := s.bucket b
  match k.entries.find? (fun e => e.hasKey fp length) with
  | some e => ⟨some (e, false), k.entries.length⟩
  | none =>
    if 0 < k.spill then ⟨(s.spillAt fp length).map (fun x => (x.entry, true)), k.entries.length⟩
    else ⟨none, k.entries.length⟩

/-! ## Insertion, removal, change of a count -/

/-- R56, R59: an entry inserted into its bucket. -/
def State.insertBucket (s : State) (e : IndexEntry) : State :=
  let b := bucketOf e.fp
  let k := s.bucket b
  let s := s.setBucket b { k with entries := k.entries ++ [e] }
  { s with index := { s.index with entryCount := s.index.entryCount + 1 } }

/-- The spill table with `v` under the key. -/
def State.setSpill (s : State) (fp : Fp) (length : Nat) (v : Option SpillEntry) : State :=
  { s with index := { s.index with spill := tableSet none s.index.spill (spillKey fp length) v } }

/-- R56, R54, R59: an entry inserted into the spill table. -/
def State.insertSpill (s : State) (e : IndexEntry) : State :=
  let b := bucketOf e.fp
  let k := s.bucket b
  let s := (s.setBucket b { k with spill := k.spill + 1 }).setSpill e.fp e.length (some ⟨e, b⟩)
  { s with index := { s.index with entryCount := s.index.entryCount + 1, spillCount := s.index.spillCount + 1 } }

/-- R56: an entry goes to its bucket when that holds fewer than 8, else to the spill table; `count` is the bucket's
number of entries as the operation holds it. The caller has tested that there is room. -/
def State.insertEntry (s : State) (e : IndexEntry) (count : Nat) : State :=
  if count < Config.bucketMax then s.insertBucket e else s.insertSpill e

/-- R56: there is room for a new entry. -/
def State.indexRoom (s : State) (count : Nat) : Bool :=
  decide (count < Config.bucketMax) || decide (s.index.spillCount < Config.spillMax)

/-- R57, R51, R54, R59: an entry leaves its bucket or the spill table; no spill entry comes back into the bucket. -/
def State.dropEntry (s : State) (e : IndexEntry) (inSpill : Bool) (b : Nat) : State :=
  let k := s.bucket b
  let s :=
    if inSpill then
      let s := (s.setBucket b { k with spill := k.spill - 1 }).setSpill e.fp e.length none
      { s with index := { s.index with spillCount := s.index.spillCount - 1 } }
    else s.setBucket b { k with entries := k.entries.erase e }
  { s with index := { s.index with entryCount := s.index.entryCount - 1 } }

/-- R57, R79: an entry is removed, with the accounting of its container. The caller has tested room. -/
def State.removeEntry (s : State) (e : IndexEntry) (inSpill : Bool) (b : Nat) : State :=
  (s.dropEntry e inSpill b).account e.container e.length

/-- R58: the reference count of an entry becomes `refs`. -/
def State.setRefs (s : State) (e : IndexEntry) (inSpill : Bool) (b refs : Nat) : State :=
  if inSpill then s.setSpill e.fp e.length (some ⟨{ e with refs := refs }, b⟩)
  else
    let k := s.bucket b
    s.setBucket b
      { k with entries := k.entries.map (fun x => if x.hasKey e.fp e.length then { x with refs := refs } else x) }

/-! ## The in-flight set -/

/-- R62: a bucket enters the in-flight set. -/
def State.enterFlight (s : State) (b : Nat) : State :=
  { s with index := { s.index with inflight := s.index.inflight ++ [b] } }

/-- R62: a bucket leaves the in-flight set. -/
def State.leaveFlight (s : State) (b : Nat) : State :=
  { s with index := { s.index with inflight := s.index.inflight.filter (fun x => x != b) } }

/-! ## The lookup queue -/

/-- R61: the lookups that have come within the first 16 become PENDING. -/
def promote (q : List QLookup) : List QLookup :=
  (q.take Config.windowMax).map (fun x => if x.state = .queued then { x with state := .pending } else x) ++
    q.drop Config.windowMax

/-- R116, R70: the span of that number of a slot, changed. -/
def Slot.onSpan (sl : Slot) (number : Nat) (f : Span → Span) : Slot :=
  sl.mapSpans (fun sp => if sp.number = number then f sp else sp)

/-- R35, R102, R116: a lookup joins the tail of the lookup queue, reserving a verdict place and raising its span's
outstanding count. -/
def State.joinLookup (s : State) (lk : Lookup) : State :=
  let st : LookupState := if s.index.lookups.length < Config.windowMax then .pending else .queued
  let sl := s.slot lk.slot
  let s := s.setSlot lk.slot
    { sl.onSpan lk.span (fun sp => { sp with outstanding := sp.outstanding + 1 }) with reserved := sl.reserved + 1 }
  { s with index := { s.index with lookups := s.index.lookups ++ [⟨lk, st, none⟩] } }

/-- R69: the head of the lookup queue is BLOCKED. -/
def headBlocked : List QLookup → Bool
  | q :: _ => q.state == .blocked
  | [] => false

/-! ## The port and its arbiter -/

/-- R63, R72: the place of the lookup nearest the head that claims the port: PENDING, no lookup ahead of it with the
same bucket (`ahead`), its bucket not in flight. -/
def claimFrom (inflight : List Nat) : List Nat → Nat → List QLookup → Option Nat
  | _, _, [] => none
  | ahead, i, q :: t =>
    if q.state = .pending ∧ ¬ ahead.contains q.lk.bucket ∧ ¬ inflight.contains q.lk.bucket then some i
    else claimFrom inflight (q.lk.bucket :: ahead) (i + 1) t

/-- R63, R72: the lookup the arbiter would grant first; none claims while the head is BLOCKED. Once a container number
has entered the free list the head is PENDING, and from then on the lookups behind it claim as condition 3 of R63 has
it, although R65 and R69 could be read as keeping them from it until the head has applied (DESIGN CHOICE, log entry
47). -/
def State.lookupClaim (s : State) : Option Nat :=
  if headBlocked s.index.lookups then none else claimFrom s.index.inflight [] 0 s.index.lookups

/-- R137, R139: an item whose length can name an index entry. -/
def ReleaseItem.sound (it : ReleaseItem) : Bool := decide (1 ≤ it.length ∧ it.length ≤ Config.lengthMax)

/-- R72, R137, R140: the item at the head of the release queue claims the port. -/
def State.releaseClaim (s : State) : Option ReleaseItem :=
  match s.index.releases with
  | it :: _ =>
    if it.sound && !s.index.completeHeld && s.index.other.isNone && !s.index.inflight.contains (bucketOf it.fp) then
      some it
    else none
  | [] => none

/-- R72, R99: the walker claims the port for the bucket at its position. -/
def State.sweepClaim (s : State) : Bool :=
  s.walker.sweeping && s.index.other.isNone && !s.index.inflight.contains s.walker.position

/-- R72: the release item is granted before any lookup. -/
def State.releaseFirst (s : State) : Bool :=
  s.releaseClaim.isSome && decide (Config.releaseShare ≤ s.index.passed)

/-- R72: a release item waits at the head, that is, its operation is not the one in progress (log entry 12). -/
def State.releaseWaits (s : State) : Bool :=
  !s.index.releases.isEmpty && match s.index.other with | some (.release _) => false | _ => true

/-- R62, R63, R72: the port is granted to the lookup at place `i`. -/
def State.grantLookup (s : State) (i : Nat) : State :=
  match s.index.lookups[i]? with
  | some q =>
    let passed := if s.releaseWaits then s.index.passed + 1 else s.index.passed
    ({ s with
      index := { s.index with
        lookups := s.index.lookups.set i { q with state := .reading }
        passed := passed } }).enterFlight q.lk.bucket
  | none => s

/-- R63, R72: the port arbiter grants the lookup that claims nearest the head, unless the release item goes first. -/
def execLookupPortGrant (s : State) : Host.Outcome State Fault Refusal :=
  match s.lookupClaim with
  | some i => if s.inService && !s.releaseFirst then .next (s.grantLookup i) else .next s
  | none => .next s

/-- R72, R73: the release item at the head is granted the port. -/
def execReleasePortGrant (s : State) : Host.Outcome State Fault Refusal :=
  match s.releaseClaim with
  | some it =>
    if s.inService && (s.lookupClaim.isNone || s.releaseFirst) then
      .next ({ s with
        index := { s.index with other := some (.release (bucketOf it.fp)), passed := 0 } }.enterFlight (bucketOf it.fp))
    else .next s
  | none => .next s

/-- R72, R99: the walker is granted the port when neither lookup nor release item claims it. -/
def execSweepPortGrant (s : State) : Host.Outcome State Fault Refusal :=
  if s.inService && s.sweepClaim && s.lookupClaim.isNone && s.releaseClaim.isNone then
    .next ({ s with index := { s.index with other := some (.sweep s.walker.position) } }.enterFlight s.walker.position)
  else .next s

/-! ## The completion of a read -/

/-- R64, R69: the read at place `i` completes: the lookup becomes READ with its result, or, behind a BLOCKED head,
returns to PENDING and gives up its bucket. Behind a head that was BLOCKED and is PENDING again or further it becomes
READ (DESIGN CHOICE, log entry 47). -/
def State.completeRead (s : State) (i : Nat) (q : QLookup) : State :=
  if headBlocked s.index.lookups then
    let q' := { q with state := .pending, result := none }
    { s with index := { s.index with lookups := s.index.lookups.set i q' } }.leaveFlight q.lk.bucket
  else
    let q' := { q with state := .read, result := some (s.search q.lk.bucket q.lk.fp q.lk.length) }
    { s with index := { s.index with lookups := s.index.lookups.set i q' } }

/-- R64, R76, R77: the read of the lookup at that place completes; in FAULT its result is discarded. -/
def execLookupReadDone (place corrected : Nat) (s : State) : Host.Outcome State Fault Refusal :=
  match s.index.lookups[place]? with
  | some q =>
    if q.state = .reading then
      if s.inService then .next ((s.noteCorrected corrected).completeRead place q)
      else if s.inFault then .next (s.noteCorrected corrected)
      else .next s
    else .next s
  | none => .next s

end Sys2Proof.Machine
end

