-- ==== Sys2Proof/Machine/Apply.lean ====
section
/-! DEFINITION. The apply of the lookup at the head (R65 to R70, R82 to R85): DUP, the removal of a lost container's
entry, placement, NEW, PASS, and BLOCKED. An apply that waits for the placement unit leaves the state as it is; one
that the placement unit holds for a notice keeps every stage already made and goes on from there, which R96 and R160
leave open (DESIGN CHOICE, log entry 45). -/

namespace Sys2Proof.Machine

/-! ## Handing on the outcome -/

/-- R116: the counters of a span after a verdict. -/
def Counters.count (c : Counters) (kind : VerdictKind) (length : Nat) : Counters :=
  let c := { c with bytes := c.bytes + length, chunks := c.chunks + 1 }
  match kind with
  | .new => { c with newChunks := c.newChunks + 1, newBytes := c.newBytes + length }
  | .dup => { c with dupChunks := c.dupChunks + 1, dupBytes := c.dupBytes + length }
  | .pass => { c with passChunks := c.passChunks + 1, passBytes := c.passBytes + length }

/-- R14: the stream totals after a verdict. -/
def Totals.count (t : Totals) (kind : VerdictKind) (length : Nat) : Totals :=
  let t := { t with chunks := t.chunks + 1 }
  match kind with
  | .new => { t with newChunks := t.newChunks + 1, newBytes := t.newBytes + length }
  | .dup => { t with dupChunks := t.dupChunks + 1, dupBytes := t.dupBytes + length }
  | .pass => { t with passChunks := t.passChunks + 1, passBytes := t.passBytes + length }

/-- R117: a container joins a dependency set that does not hold it already. -/
def addDep (deps : List Nat) : Option Nat → List Nat
  | some c => if deps.contains c then deps else deps ++ [c]
  | none => deps

/-- R70, R116: what an apply does to its span; a retired span loses only the outstanding lookup. -/
def Span.applied (v : Verdict) (dep : Option Nat) (sp : Span) : Span :=
  let sp := { sp with outstanding := sp.outstanding - 1 }
  if sp.retired then sp else { sp with counters := sp.counters.count v.kind v.length, deps := addDep sp.deps dep }

/-- R70, R103, R14, R115: the slot after an apply: the verdict fills the oldest reserved place, the span and the totals
are updated, and a retired ended span without outstanding lookups is removed. The byte total of the verdict's kind rises
here, and the bytes consumed only where the lane finishes the entry (`Slot.finishEntry`), so that until then the NEW,
DUP and PASS bytes together can exceed the bytes consumed, which R14 says they never do (DESIGN CHOICE, log entry
42). -/
def Slot.applied (sl : Slot) (number : Nat) (v : Verdict) (dep : Option Nat) : Slot :=
  let sl := sl.onSpan number (Span.applied v dep)
  { sl with
    ended := sl.ended.bind keepEnded
    filled := sl.filled ++ [v]
    reserved := sl.reserved - 1
    totals := sl.totals.count v.kind v.length }

/-- R106: the filled count has reached the batch threshold. -/
def Slot.atThreshold (sl : Slot) : Bool :=
  match sl.threshold with
  | some t => decide (t ≤ sl.filled.length)
  | none => false

/-- R106, R110, R111: a fill calls for a batch at the threshold, or for the last batch when it is due. -/
def State.afterFill (s : State) (n : Nat) : State :=
  if s.lastBatchDue n || (s.slot n).atThreshold then s.callBatch n else s

/-- R65: the applied lookup leaves the queue, its bucket the in-flight set, and the rest move up; a starvation episode
ends (R69, R85). -/
def State.popLookup (s : State) (q : QLookup) : State :=
  { s with index := { s.index with lookups := promote (s.index.lookups.drop 1), starving := none } }.leaveFlight
    q.lk.bucket

/-- R65, R70: everything an apply hands on once its verdict is decided. Where the last apply of an ABORTING stream
brings both its last batch (R111) and the close or the completion of its sealed, cut mark (R122, R123), the manual gives
no order; here the batch is made first, so that it drops the mark (R18): no container is closed for the seal, and no
report, hand-on or sample is made of it (DESIGN CHOICE, log entry 40). -/
def State.finishApply (s : State) (q : QLookup) (v : Verdict) (dep : Option Nat) : State :=
  let n := q.lk.slot
  let s := s.popLookup q
  ((s.setSlot n ((s.slot n).applied q.lk.span v dep)).afterFill n).checkMark n

/-- R70: the verdict of a lookup. -/
def verdictOf (q : QLookup) (kind : VerdictKind) (at_ : Option (Nat × Nat × ContState)) : Verdict :=
  { start := q.lk.start, length := q.lk.length, kind := kind, cut := q.lk.cut, fp := q.lk.fp,
    container := at_.map (fun p => p.1), offset := at_.map (fun p => p.2.1), cstate := at_.map (fun p => p.2.2) }

/-! ## DUP -/

/-- R58, R66: the count an entry has after a DUP. -/
def dupRefs (refs : Nat) : Nat := if refs = Config.pinned then refs else refs + 1

/-- R66: the lookup is decided DUP against an entry of a container in state `st`. -/
def State.applyDup (s : State) (q : QLookup) (e : IndexEntry) (inSpill : Bool) (st : ContState) : State :=
  (s.setRefs e inSpill q.lk.bucket (dupRefs e.refs)).finishApply q
    (verdictOf q .dup (some (e.container, e.offset, st))) (if st = .durable then none else some e.container)

/-! ## A miss -/

/-- R82 step 1, R68 steps 4 and 5: the chunk is placed in an OPEN container and its entry inserted; the verdict is
NEW. -/
def State.applyNew (s : State) (q : QLookup) (count c : Nat) : State :=
  let k := s.container c
  let n := q.lk.length
  let s := s.setContainer c { k with fill := k.fill + n, entries := k.entries + 1, live := k.live + n }
  (s.insertEntry ⟨q.lk.fp, n, c, k.fill, 1⟩ count).finishApply q (verdictOf q .new (some (c, k.fill, .open_))) (some c)

/-- R83: the container at the head of the free list is opened for a group. -/
def State.openContainer (s : State) (g c : Nat) : State :=
  let s := (s.setContainer c ⟨.open_, some g, s.ctl.settings.capacityMib * Config.mib, 0, 0, 0⟩).setOpenPlace g (some c)
  { s with place := { s.place with freeList := s.place.freeList.drop 1 } }

/-- R69: the lookups behind a BLOCKED head that are READ return to PENDING, their results discarded. -/
def giveUp (q : QLookup) : QLookup := if q.state = .read then { q with state := .pending, result := none } else q

/-- R69: the buckets of the head and of the READ lookups behind it. -/
def givenUp (q : QLookup) (t : List QLookup) : List Nat :=
  q.lk.bucket :: (t.filter (fun x => x.state == .read)).map (fun x => x.lk.bucket)

/-- R85: the STARVED notice of the blocked lookup. -/
def State.starvedNotice (s : State) (q : QLookup) : Notice :=
  .starved ((s.slot q.lk.slot).group.getD 0) q.lk.slot q.lk.length s.place.nFull s.place.nReclaimable s.place.nLost

/-- R69, R85, R42: the head becomes BLOCKED; a starvation episode begins, with one STARVED notice, unless it lasts
already. -/
def State.block (s : State) (q : QLookup) (g : Nat) : State :=
  let t := s.index.lookups.drop 1
  let gone := givenUp q t
  let begun := s.index.starving.isNone
  let s := { s with index := { s.index with
    lookups := { q with state := .blocked, result := none } :: t.map giveUp
    inflight := s.index.inflight.filter (fun b => !gone.contains b)
    starving := some g } }
  if begun then if s.hasRoom then s.enter (s.starvedNotice q) else s.holdPlace .starved else s

/-- R82 steps 3 and 4: a container is opened for the group and the chunk placed in it, or none is available. -/
def State.openAndPlace (s : State) (q : QLookup) (count g : Nat) : State :=
  match s.place.freeList with
  | c :: _ => (s.openContainer g c).applyNew q count c
  | [] => s.block q g

/-- R82, R84: the placement of a chunk of the lookup's length in its stream's group. -/
def State.placeChunk (s : State) (q : QLookup) (count : Nat) : State :=
  let g := (s.slot q.lk.slot).group.getD 0
  match s.openPlace g with
  | some c =>
    let k := s.container c
    if k.fill + q.lk.length ≤ k.capacity then s.applyNew q count c
    else if s.hasRoom then (s.closeToFull c .space).openAndPlace q count g
    else s.holdPlace .apply
  | none => s.openAndPlace q count g

/-- R68: the lookup is decided as a miss, `count` being the bucket count it holds. -/
def State.applyMiss (s : State) (q : QLookup) (count : Nat) : State :=
  if s.indexRoom count then if s.place.held.isSome then s else s.placeChunk q count
  else s.finishApply q (verdictOf q .pass none) none

/-! ## The entry of a LOST container -/

/-- The head of the lookup queue with another result. -/
def State.setHeadResult (s : State) (q : QLookup) (r : ReadResult) : State :=
  { s with index := { s.index with lookups := { q with result := some r } :: s.index.lookups.drop 1 } }

/-- R67: the entry is removed, and the lookup goes on as a miss with its bucket count lowered if the entry stood in the
bucket. -/
def State.applyLost (s : State) (q : QLookup) (e : IndexEntry) (inSpill : Bool) (count : Nat) : State :=
  if s.place.held.isSome then s
  else if s.removalNotice e.container && !s.hasRoom then s.holdPlace .apply
  else
    let count := if inSpill then count else count - 1
    let q' := { q with result := some ⟨none, count⟩ }
    ((s.removeEntry e inSpill q.lk.bucket).setHeadResult q ⟨none, count⟩).applyMiss q' count

/-! ## The apply -/

/-- R65 to R68: the READ lookup at the head applies. No entry names a FREE or RECLAIMABLE container (R66). -/
def State.applyHead (s : State) : State :=
  match s.index.lookups with
  | q :: _ =>
    match q.state, q.result with
    | .read, some r =>
      match r.found with
      | some (e, inSpill) =>
        match (s.container e.container).state with
        | .durable => s.applyDup q e inSpill .durable
        | .open_ => s.applyDup q e inSpill .open_
        | .full => s.applyDup q e inSpill .full
        | .lost => s.applyLost q e inSpill r.count
        | .free => s
        | .reclaimable => s
      | none => s.applyMiss q r.count
    | _, _ => s
  | [] => s

/-- R65: the lookup at the head applies when it is READ. An apply the placement unit already holds goes on at
HELD_CONTAINER_NOTICE_ENTRY. -/
def execLookupApply (corrected : Nat) (s : State) : Host.Outcome State Fault Refusal :=
  if s.inService && (match s.index.lookups with | q :: _ => q.state == .read | [] => false) &&
      s.place.held != some .apply then
    .next (s.noteCorrected corrected).applyHead
  else .next s

end Sys2Proof.Machine
end

