-- ==== Sys2Proof/Machine/ContainerRequests.lean ====
section
/-! DEFINITION. The container requests (chapter 5): DURABLE, LOST, FREE, FLUSH, QUERY CONTAINER. A request whose
transition makes a notice that has no room is held by the placement unit at the head of the request queue (R96). -/

namespace Sys2Proof.Machine

/-- R90: the container leaves every live dependency set that holds it. -/
def State.dropFromSets (s : State) (c : Nat) : State := s.mapSlots (fun sl => sl.mapSpans (Span.dropDep c))

/-- R93: every live span that holds the container is tainted, and the container leaves its set. -/
def State.taintSets (s : State) (c : Nat) : State := s.mapSlots (fun sl => sl.mapSpans (Span.taintDep c))

/-- R90 steps 1 and 3: FULL to DURABLE, and on to RECLAIMABLE when no entry names the container. -/
def State.makeDurable (s : State) (c : Nat) : State :=
  let k := s.container c
  let s := s.setContainer c { k with state := .durable }
  let s := { s with place := { s.place with nFull := s.place.nFull - 1 } }
  if k.entries = 0 then s.reclaim c else s

/-- R90. The container's own notice enters before the marks are looked at that its leaving the sets completes: with one
place of the notice queue left it takes that place, and the report is held (R128). R90 does all at once and gives no
order (DESIGN CHOICE, log entry 48). -/
def takeDurable (r : Request) (s : State) : State :=
  let c := field r.payload 0 2
  let k := s.container c
  if s.ctl.dev ≠ .service then s.refuse r .badState
  else if k.state ≠ .full then s.refuse r .badState
  else if k.entries = 0 ∧ s.hasRoom = false then s.holdPlace .request
  else
    let spans := s.spansHolding c
    (((s.makeDurable c).dropFromSets c).answer r .done
      (.durable (if k.entries = 0 then .reclaimable else .durable) spans)).checkMarks s.slotNumbers

/-- R90: DURABLE is taken by the placement unit. -/
def execDurable (corrected : Nat) (s : State) : Host.Outcome State Fault Refusal :=
  match s.headRequest .durable with
  | some r => .next (takeDurable r (s.noteCorrected corrected))
  | none => .next s

/-- R93 steps 1, 3 and 4: the container goes to LOST, and to FREE at once when no entry names it; otherwise an IDLE
walker becomes SWEEPING. -/
def State.makeLost (s : State) (c : Nat) : State :=
  let k := s.container c
  let s := s.setContainer c { k with state := .lost }
  let s := { s with place := { s.place with
    nFull := if k.state = ContState.full then s.place.nFull - 1 else s.place.nFull
    nLost := s.place.nLost + 1 } }
  if k.entries = 0 then s.freeLost c else { s with walker := { s.walker with sweeping := true } }

/-- R93. The container's own notice enters before the marks are looked at that its leaving the sets completes: with one
place of the notice queue left it takes that place, and the report is held (R128). R93 does all at once and gives no
order (DESIGN CHOICE, log entry 48). -/
def takeLost (r : Request) (s : State) : State :=
  let c := field r.payload 0 2
  let k := s.container c
  if s.ctl.dev ≠ .service then s.refuse r .badState
  else if k.state ≠ .full ∧ k.state ≠ .durable then s.refuse r .badState
  else if k.entries = 0 ∧ s.hasRoom = false then s.holdPlace .request
  else
    let spans := s.spansHolding c
    (((s.makeLost c).taintSets c).answer r .done (.lost (if k.entries = 0 then .free else .lost) spans)).checkMarks
      s.slotNumbers

/-- R93: LOST is taken by the placement unit. -/
def execLost (corrected : Nat) (s : State) : Host.Outcome State Fault Refusal :=
  match s.headRequest .lost with
  | some r => .next (takeLost r (s.noteCorrected corrected))
  | none => .next s

/-- R92. -/
def takeFree (r : Request) (s : State) : State :=
  let c := field r.payload 0 2
  if s.ctl.dev ≠ .service then s.refuse r .badState
  else if (s.container c).state ≠ .reclaimable then s.refuse r .badState
  else
    let s := { s with place := { s.place with nReclaimable := s.place.nReclaimable - 1 } }.freeContainer c
    s.answer r .done (.free s.place.freeList.length)

/-- R92: FREE is taken by the placement unit. -/
def execFree (corrected : Nat) (s : State) : Host.Outcome State Fault Refusal :=
  match s.headRequest .free with
  | some r => .next (takeFree r (s.noteCorrected corrected))
  | none => .next s

/-- R86. -/
def takeFlush (r : Request) (s : State) : State :=
  let g := field r.payload 0 1
  if s.ctl.dev ≠ .service then s.refuse r .badState
  else if Config.groupCount ≤ g then s.refuse r .range
  else
    match s.openPlace g with
    | none => s.refuse r .noContainer
    | some c =>
      if s.hasRoom then
        let k := s.container c
        (s.closeToFull c .flush).answer r .done (.flush c k.fill k.entries)
      else s.holdPlace .request

/-- R86: FLUSH is taken by the placement unit. -/
def execFlush (corrected : Nat) (s : State) : Host.Outcome State Fault Refusal :=
  match s.headRequest .flush with
  | some r => .next (takeFlush r (s.noteCorrected corrected))
  | none => .next s

/-- R97: the position of a FREE container's number in the free list, counted from 1; 0 in every other state. -/
def State.freePosition (s : State) (c : Nat) : Nat :=
  if (s.container c).state = .free then
    match s.place.freeList.findIdx? (fun x => x == c) with
    | some i => i + 1
    | none => 0
  else 0

/-- R97. -/
def State.containerFigures (s : State) (c : Nat) : ContainerFigures :=
  let k := s.container c
  { container := c, state := k.state, group := k.group, capacity := k.capacity, fill := k.fill, entries := k.entries,
    live := k.live, isOpen := k.state == .open_, position := s.freePosition c, spans := s.spansHolding c }

/-- R97. -/
def takeQueryContainer (r : Request) (s : State) : State :=
  if s.ctl.dev ≠ .service then s.refuse r .badState
  else s.answer r .done (.queryContainer (s.containerFigures (field r.payload 0 2)))

/-- R97: QUERY CONTAINER is taken by the placement unit. -/
def execQueryContainer (corrected : Nat) (s : State) : Host.Outcome State Fault Refusal :=
  match s.headRequest .queryContainer with
  | some r => .next (takeQueryContainer r (s.noteCorrected corrected))
  | none => .next s

end Sys2Proof.Machine
end

