-- ==== Sys2Proof/Machine/MarkRequests.lean ====
section
/-! DEFINITION. The requests of the mark unit (chapter 7): MARK, SEAL, READ REPORT, ACK REPORT, RETIME, and the events
that let a held report or a held ACK REPORT go on. -/

namespace Sys2Proof.Machine

/-- R120: the checks of MARK after those of R2 and R4. -/
def State.markReason (s : State) (n : Nat) : Option Reason :=
  let sl := s.slot n
  if sl.mark.phase ≠ .none ∨ s.markerWaits n = true ∨ sl.ended.isSome = true then some .markBusy
  else if sl.waiting.isSome then some .slotHeld
  else if Config.inputQueueMax ≤ sl.queue.length then some .queueFull
  else none

/-- R120: the mark MARK opens. -/
def Slot.openMark (sl : Slot) (id : Nat) : Slot :=
  { sl with
    queue := sl.queue ++ [.mark sl.nextOffset]
    mark := ⟨.open_, some id, some sl.nextOffset, false, none, 0, 2 * sl.interval.getD 0 * 1000⟩ }

/-- R120. -/
def takeMark (r : Request) (s : State) : State :=
  match s.streamCheck r with
  | some reason => s.refuse r reason
  | none =>
    match s.markReason r.stream with
    | some reason => s.refuse r reason
    | none =>
      let sl := s.slot r.stream
      (s.setSlot r.stream (sl.openMark (field r.payload 0 4))).answer r .done (.mark sl.nextOffset)

/-- R120: MARK is taken by the mark unit. -/
def execMark (s : State) : Host.Outcome State Fault Refusal :=
  match s.headRequest .mark with
  | some r => .next (takeMark r s)
  | none => .next s

/-- R121: the checks of SEAL. -/
def sealReason (sl : Slot) (id : Nat) : Option Reason :=
  if sl.mark.phase = .none ∨ sl.mark.id ≠ some id then some .noMark
  else if sl.mark.phase ≠ .open_ then some .badState
  else none

/-- R121: the reply is made first, then the close or the completion that is due. -/
def takeSeal (r : Request) (s : State) : State :=
  match s.streamCheck r with
  | some reason => s.refuse r reason
  | none =>
    let sl := s.slot r.stream
    match sealReason sl (field r.payload 0 4) with
    | some reason => s.refuse r reason
    | none =>
      let m := { sl.mark with phase := .sealing, sealLen := some (field r.payload 4 6) }
      ((s.setSlot r.stream { sl with mark := m }).answer r .done .none).checkMark r.stream

/-- R121: SEAL is taken by the mark unit; the seal's close reads container records (R122, R76). -/
def execSeal (corrected : Nat) (s : State) : Host.Outcome State Fault Refusal :=
  match s.headRequest .seal with
  | some r => .next (takeSeal r (s.noteCorrected corrected))
  | none => .next s

/-- R129. -/
def takeReadReport (r : Request) (s : State) : State :=
  match s.streamCheck r with
  | some reason => s.refuse r reason
  | none =>
    let sl := s.slot r.stream
    match sl.reportSlot with
    | none => s.refuse r .noReport
    | some (rep, age) => s.answer r .done (.readReport rep age sl.waiting.isSome)

/-- R129: READ REPORT is taken by the mark unit. -/
def execReadReport (s : State) : Host.Outcome State Fault Refusal :=
  match s.headRequest .readReport with
  | some r => .next (takeReadReport r s)
  | none => .next s

/-- R130: the report in the slot is discarded and a waiting one moves in; the caller has tested room for the REPORT
READY of a waiting report. Emptying both places may let the stream close (R16). -/
def State.ackReport (s : State) (r : Request) (old : Report) : State :=
  let n := r.stream
  let sl := s.slot n
  match sl.waiting with
  | some rep =>
    ((s.setSlot n { sl with reportSlot := none, waiting := none }).enterReport n rep).answer r .done
      (.ackReport old.id true)
  | none => ((s.setSlot n { sl with reportSlot := none }).answer r .done (.ackReport old.id false)).tryClose n

/-- R128, R130: an ACK REPORT that must make a REPORT READY waits for its room at the head of the request queue. -/
def takeAckReport (r : Request) (s : State) : State :=
  match s.streamCheck r with
  | some reason => s.refuse r reason
  | none =>
    match (s.slot r.stream).reportSlot with
    | none => s.refuse r .noReport
    | some (old, _) =>
      if (s.slot r.stream).waiting.isSome && !s.hasRoom then { s with marks := { s.marks with ackHeld := true } }
      else s.ackReport r old

/-- R130: ACK REPORT is taken by the mark unit. -/
def execAckReport (s : State) : Host.Outcome State Fault Refusal :=
  match s.headRequest .ackReport with
  | some r => .next (takeAckReport r s)
  | none => .next s

/-- R128: a held ACK REPORT is taken when its notice can enter. It is checked anew as it is taken, so that one whose
report places the last batch of an aborted stream has emptied meanwhile is refused NO-REPORT, or NO-STREAM once the slot
is FREE (DESIGN CHOICE, log entry 43); and it is taken while a hand-on waits, although R142 has the mark unit take no
request then, since R128 makes it wait for its notice alone (DESIGN CHOICE, log entry 44). -/
def execHeldAckReport (s : State) : Host.Outcome State Fault Refusal :=
  match s.link.requests with
  | r :: _ =>
    if s.marks.ackHeld && s.inService && r.kind == .ackReport then
      .next (takeAckReport r { s with marks := { s.marks with ackHeld := false } })
    else .next s
  | [] => .next s

/-- R131. -/
def takeRetime (r : Request) (s : State) : State :=
  match s.streamCheck r with
  | some reason => s.refuse r reason
  | none =>
    let sl := s.slot r.stream
    if sl.mark.phase ≠ .none then s.refuse r .locked
    else
      let v := field r.payload 0 2
      let i := clampTo 10 3600 v
      (s.setSlot r.stream { sl with interval := some i }).answer r (if i = v then .done else .clamped)
        (.retime (i != v))

/-- R131: RETIME is taken by the mark unit. -/
def execRetime (s : State) : Host.Outcome State Fault Refusal :=
  match s.headRequest .retime with
  | some r => .next (takeRetime r s)
  | none => .next s

/-- R128: a held report enters its report slot with REPORT READY. -/
def execHeldReportEntry (slot : Nat) (s : State) : Host.Outcome State Fault Refusal :=
  match (s.slot slot).heldReport with
  | some rep =>
    if s.inService && s.hasRoom then
      .next ((s.setSlot slot { s.slot slot with heldReport := none }).enterReport slot rep)
    else .next s
  | none => .next s

end Sys2Proof.Machine
end

