-- ==== Sys2Proof/Machine/Link.lean ====
section
/-! DEFINITION. The record link interface (chapter 9): the check value, the byte layouts of replies, notices and
batches, frames received, CREDIT, link faults, and the transmit arbiter's choice. -/

namespace Sys2Proof.Machine

/-! ## The check value -/

/-- R150: one shift of the register toward its low end. -/
def crcShift (r : Word32) : Word32 := if r.getLsbD 0 then (r >>> 1) ^^^ 0xEDB88320#32 else r >>> 1

/-- R150: a byte is combined into the register, which is shifted 8 times. -/
def crcByte (r : Word32) (b : Byte) : Word32 := (List.range 8).foldl (fun r _ => crcShift r) (r ^^^ b.setWidth 32)

/-- R150: the check value of a header and payload. -/
def checkValue (bytes : List Byte) : Word32 := ~~~ (bytes.foldl crcByte 0xFFFFFFFF#32)

/-- R150: a frame: header, payload, check value. -/
def frameBytes (kind stream tag : Nat) (payload : List Byte) : List Byte :=
  let body := beBytes 2 payload.length ++ beBytes 1 kind ++ beBytes 1 stream ++ beBytes 2 tag ++ payload
  body ++ beBytes 4 (checkValue body).toNat

/-! ## Codes (R157, R164) -/

/-- R157. -/
def Reason.code : Reason → Nat
  | .badState => 1 | .unknownKind => 2 | .badLength => 3 | .noSlot => 4 | .branchBusy => 5 | .noStream => 6
  | .badProfile => 7 | .markBusy => 8 | .noMark => 9 | .slotHeld => 10 | .locked => 11 | .held => 12 | .range => 13
  | .queueFull => 14 | .offset => 15 | .noReport => 16 | .settingsBusy => 17 | .noContainer => 18

/-- R164. -/
def SlotState.code : SlotState → Nat | .free => 0 | .active => 1 | .draining => 2 | .aborting => 3
/-- R164. -/
def ContState.code : ContState → Nat
  | .free => 0 | .open_ => 1 | .full => 2 | .durable => 3 | .reclaimable => 4 | .lost => 5
/-- R164. -/
def DevState.code : DevState → Nat | .starting => 0 | .restore => 1 | .service => 2 | .fault => 3
/-- R164. -/
def ResetCause.code : ResetCause → Nat | .power => 0 | .pin => 1 | .command => 2
/-- R164. -/
def StoreState.code : StoreState → Nat | .invalid => 0 | .valid => 1 | .saving => 2
/-- R164. -/
def MarkPhase.code : MarkPhase → Nat | .none => 0 | .open_ => 1 | .sealing => 2
/-- R164. -/
def BranchPhase.code : BranchPhase → Nat | .cold => 0 | .hot => 1
/-- R164. -/
def LinkCause.code : LinkCause → Nat | .check => 1 | .length => 2 | .overrun => 3
/-- R164. -/
def FullCause.code : FullCause → Nat | .space => 1 | .flush => 2 | .seal => 3
/-- R164. -/
def CloseReason.code : CloseReason → Nat | .closed => 1 | .aborted => 2
/-- R164. -/
def ClampField.code : ClampField → Nat
  | .lmin => 1 | .ltgt => 2 | .lmax => 3 | .ks => 4 | .kl => 5 | .seed => 6 | .interval => 7 | .lengthCheck => 8
  | .weight => 9 | .pacingPeriod => 10 | .threshold => 11
/-- R164. -/
def VerdictKind.code : VerdictKind → Nat | .new => 1 | .dup => 2 | .pass => 3
/-- R164. -/
def CutReason.code : CutReason → Nat | .max => 1 | .strict => 2 | .loose => 3 | .mark => 4 | .endCut => 5
/-- R164. -/
def Outcome.code : Outcome → Nat | .clean => 0 | .mismatch => 1 | .tainted => 2 | .violation => 3
/-- R164. -/
def LengthMatch.code : LengthMatch → Nat | .matched => 0 | .different => 1 | .unknown => 2
/-- R164: a flag or a yes-or-no figure. -/
def flagCode (b : Bool) : Nat := if b then 1 else 0
/-- R164's presence byte: 1 for the first, plus 2 for the second. -/
def presence (a b : Bool) : Nat := flagCode a + 2 * flagCode b

/-! ## Byte layouts (R164) -/

/-- R164: a verdict entry of 35 bytes. -/
def verdictBytes (v : Verdict) : List Byte :=
  beBytes 6 v.start ++ beBytes 4 v.length ++ beBytes 1 v.kind.code ++ beBytes 1 v.cut.code ++ beBytes 16 v.fp.toNat ++
    beBytes 2 (v.container.getD 0) ++ beBytes 4 (v.offset.getD 0) ++ beBytes 1 (v.cstate.elim 0 ContState.code)

/-- R164: the payload of a VERDICT BATCH. -/
def batchBytes (b : Batch) : List Byte :=
  beBytes 6 b.consumed ++ beBytes 1 (presence b.final b.aborted) ++ beBytes 1 b.verdicts.length ++
    b.verdicts.flatMap verdictBytes

/-- R164: the eight counters of a span, 6 bytes each, in the order of the report. -/
def counterBytes (c : Counters) : List Byte :=
  beBytes 6 c.bytes ++ beBytes 6 c.chunks ++ beBytes 6 c.newChunks ++ beBytes 6 c.newBytes ++ beBytes 6 c.dupChunks ++
    beBytes 6 c.dupBytes ++ beBytes 6 c.passChunks ++ beBytes 6 c.passBytes

/-- R164: the nine stream totals, 6 bytes each, in the order R1 gives. -/
def totalsBytes (t : Totals) : List Byte :=
  beBytes 6 t.accepted ++ beBytes 6 t.consumed ++ beBytes 6 t.chunks ++ beBytes 6 t.newChunks ++ beBytes 6 t.newBytes ++
    beBytes 6 t.dupChunks ++ beBytes 6 t.dupBytes ++ beBytes 6 t.passChunks ++ beBytes 6 t.passBytes

/-- R164: a report of 85 bytes. -/
def reportBytes (r : Report) : List Byte :=
  beBytes 1 r.stream ++ beBytes 1 r.branch ++ beBytes 4 r.id ++ beBytes 1 r.outcome.code ++ beBytes 1 r.spanNumber ++
    beBytes 6 r.start ++ beBytes 6 (r.endOff.getD 0) ++ beBytes 6 (r.expected.getD 0) ++
    beBytes 1 (presence r.endOff.isSome r.expected.isSome) ++ beBytes 1 r.lengthMatch.code ++ counterBytes r.counters ++
    beBytes 1 (flagCode r.tainted) ++ beBytes 2 r.lostDeps ++ beBytes 1 r.outstanding ++ beBytes 1 r.depsLeft ++
    beBytes 4 r.elapsed

/-- R164: the fields of a STATUS reply. -/
def statusBytes (f : StatusFigures) : List Byte :=
  beBytes 1 f.dev.code ++ beBytes 1 f.cause.code ++ beBytes 1 (flagCode f.settingsValid) ++ beBytes 1 f.store.code ++
    beBytes 4 f.freeList ++ beBytes 4 f.spill ++ beBytes 4 f.entries ++ beBytes 4 f.check ++ beBytes 4 f.length ++
    beBytes 4 f.overrun ++ beBytes 4 f.corrected ++ beBytes 1 f.lanes ++ beBytes 1 f.streams ++
    beBytes 1 (flagCode f.fault)

/-- R164: the fields of a SNAPSHOT reply. -/
def snapshotBytes (f : SnapshotFigures) : List Byte :=
  beBytes 1 f.state.code ++ beBytes 1 f.branch ++ beBytes 1 f.group ++ beBytes 6 f.nextOffset ++ beBytes 6 f.consumed ++
    beBytes 1 f.queued ++ beBytes 1 (flagCode f.laneHolds) ++ beBytes 1 f.activeWeight ++
    beBytes 1 (f.pendingWeight.getD 0) ++ beBytes 2 f.activePacing ++ beBytes 2 (f.pendingPacing.getD 0) ++
    beBytes 1 (presence f.pendingWeight.isSome f.pendingPacing.isSome) ++ beBytes 1 f.phase.code ++
    totalsBytes f.totals ++ beBytes 1 f.spanNumber ++ beBytes 6 f.spanStart ++ counterBytes f.counters ++
    beBytes 1 f.outstanding

/-- R164: the fields of a QUERY CONTAINER reply. -/
def containerBytes (f : ContainerFigures) : List Byte :=
  beBytes 2 f.container ++ beBytes 1 f.state.code ++ beBytes 1 (f.group.getD 0) ++ beBytes 4 f.capacity ++
    beBytes 4 f.fill ++ beBytes 4 f.entries ++ beBytes 6 f.live ++ beBytes 1 (flagCode f.isOpen) ++
    beBytes 4 f.position ++ beBytes 1 f.spans

/-- R164: the fields of a QUERY BRANCH reply. -/
def branchBytes (n : Nat) (b : Branch) : List Byte :=
  beBytes 1 n ++ beBytes 1 (b.bound.getD 0) ++ beBytes 1 b.phase.code ++ beBytes 1 b.cold ++ beBytes 2 b.baseline ++
    beBytes 2 (b.margin.getD 0) ++ beBytes 1 (flagCode b.margin.isSome) ++ beBytes 1 (flagCode b.hold) ++
    beBytes 8 b.bytesIn ++ beBytes 8 b.newBytes ++ beBytes 4 b.cleanSamples ++ beBytes 4 b.surges ++
    beBytes 4 b.relFound ++ beBytes 4 b.relMissed

/-- R164: the fields after the first three bytes of a reply. -/
def fieldsBytes : Fields → List Byte
  | .none => []
  | .status f => statusBytes f
  | .setSetting number value => beBytes 1 number ++ beBytes 4 value
  | .seed t f c d r => beBytes 1 t ++ beBytes 1 f ++ beBytes 1 c ++ beBytes 1 d ++ beBytes 1 r
  | .beginService len made => beBytes 4 len ++ beBytes 4 made
  | .openStream slot cl => beBytes 1 slot ++ beBytes 1 cl.length ++ cl.flatMap (fun c => beBytes 1 c.code)
  | .mark offset => beBytes 6 offset
  | .readReport r age w => reportBytes r ++ beBytes 4 age ++ beBytes 1 (flagCode w)
  | .ackReport id moved => beBytes 4 id ++ beBytes 1 (flagCode moved)
  | .retime c => beBytes 1 (if c then 7 else 0)
  | .setPacing c => beBytes 1 (if c then 10 else 0)
  | .snapshot f => snapshotBytes f
  | .abort n => beBytes 1 n
  | .durable st n => beBytes 1 st.code ++ beBytes 1 n
  | .lost st n => beBytes 1 st.code ++ beBytes 1 n
  | .free len => beBytes 4 len
  | .flush c fill n => beBytes 2 c ++ beBytes 4 fill ++ beBytes 4 n
  | .queryContainer f => containerBytes f
  | .release n => beBytes 1 n
  | .clearHold b => beBytes 1 (flagCode b)
  | .resetBaseline n => beBytes 2 n
  | .queryBranch n b => branchBytes n b

/-- R157: the status byte. -/
def Status.code : Status → Nat
  | .done => 0
  | .clamped => 1
  | .refused _ => 2

/-- R157: the reason byte. -/
def Status.reasonCode : Status → Nat
  | .refused r => r.code
  | .done => 0
  | .clamped => 0

/-- R157: the frame of a reply: kind code 128, the request's stream field and tag. -/
def Reply.frame (r : Reply) : List Byte :=
  frameBytes 128 r.stream r.tag
    (beBytes 1 r.kind ++ beBytes 1 r.status.code ++ beBytes 1 r.status.reasonCode ++ fieldsBytes r.fields)

/-- R153: the kind code of a notice. -/
def Notice.code : Notice → Nat
  | .ready .. => 64 | .fault .. => 65 | .linkFault .. => 66 | .containerFull .. => 67 | .containerReclaimable .. => 68
  | .containerFreed .. => 69 | .starved .. => 70 | .reportReady .. => 71 | .streamClosed .. => 72
  | .dataRefused .. => 73 | .surge .. => 74 | .releaseComplete .. => 75 | .settingsSaved .. => 76

/-- R159: the class of a notice. -/
def Notice.cls : Notice → Nat
  | .fault .. | .linkFault .. | .ready .. => 2
  | .containerFull .. | .containerReclaimable .. | .containerFreed .. | .starved .. => 3
  | .reportReady .. | .streamClosed .. | .dataRefused .. => 4
  | .surge .. | .releaseComplete .. | .settingsSaved .. => 5

/-- R164: the stream a notice names, 0 when it names none. -/
def Notice.stream : Notice → Nat
  | .starved _ n .. => n
  | .reportReady n .. => n
  | .streamClosed n .. => n
  | .dataRefused n .. => n
  | _ => 0

/-- R164: the payload of a notice. -/
def Notice.payload : Notice → List Byte
  | .ready cause valid store => beBytes 1 cause.code ++ beBytes 1 (flagCode valid) ++ beBytes 1 store.code
  | .fault before => beBytes 1 1 ++ beBytes 1 before.code
  | .linkFault cause counter kind tag => beBytes 1 cause.code ++ beBytes 4 counter ++ beBytes 1 kind ++ beBytes 2 tag
  | .containerFull c g fill n cause =>
    beBytes 2 c ++ beBytes 1 g ++ beBytes 4 fill ++ beBytes 4 n ++ beBytes 1 cause.code
  | .containerReclaimable c g fill => beBytes 2 c ++ beBytes 1 g ++ beBytes 4 fill
  | .containerFreed c g => beBytes 2 c ++ beBytes 1 g
  | .starved g n len f r l =>
    beBytes 1 g ++ beBytes 1 n ++ beBytes 4 len ++ beBytes 4 f ++ beBytes 4 r ++ beBytes 4 l
  | .reportReady n b id out => beBytes 1 n ++ beBytes 1 b ++ beBytes 4 id ++ beBytes 1 out.code
  | .streamClosed n b why next cons =>
    beBytes 1 n ++ beBytes 1 b ++ beBytes 1 why.code ++ beBytes 6 next ++ beBytes 6 cons
  | .dataRefused n why off len next =>
    beBytes 1 n ++ beBytes 1 why.code ++ beBytes 6 off ++ beBytes 2 len ++ beBytes 6 next
  | .surge b sample base margin => beBytes 1 b ++ beBytes 2 sample ++ beBytes 2 base ++ beBytes 2 margin
  | .releaseComplete tag b f fr m => beBytes 2 tag ++ beBytes 1 b ++ beBytes 1 f ++ beBytes 1 fr ++ beBytes 1 m
  | .settingsSaved w => w.toList.flatMap (beBytes 4)

/-- R150, R164: the frame of a notice; its header's tag is open (log entry 2). -/
def Notice.frame (n : Notice) (tag : Nat) : List Byte := frameBytes n.code n.stream tag n.payload

/-- R108, R153: the frame of a stream's VERDICT BATCH; its header's tag is open (log entry 2). -/
def batchFrame (n : Nat) (b : Batch) (tag : Nat) : List Byte := frameBytes 77 n tag (batchBytes b)

/-! ## Link faults -/

/-- R152: the counter of a cause. -/
def Link.count (k : Link) : LinkCause → Nat
  | .check => k.checkCount
  | .length => k.lengthCount
  | .overrun => k.overrunCount

/-- R152: the pending mark of a cause. -/
def Link.isMarked (k : Link) : LinkCause → Bool
  | .check => k.checkMark
  | .length => k.lengthMark
  | .overrun => k.overrunMark

/-- R152: a fault raises its cause's counter. -/
def Link.raise (k : Link) : LinkCause → Link
  | .check => { k with checkCount := satAdd Config.counterMax k.checkCount 1 }
  | .length => { k with lengthCount := satAdd Config.counterMax k.lengthCount 1 }
  | .overrun => { k with overrunCount := satAdd Config.counterMax k.overrunCount 1 }

/-- R152: the pending mark of a cause set or cleared. -/
def Link.setMark (k : Link) (v : Bool) : LinkCause → Link
  | .check => { k with checkMark := v }
  | .length => { k with lengthMark := v }
  | .overrun => { k with overrunMark := v }

/-- R152: the LINK FAULT of a cause, its counter as it stands, and for OVERRUN the last request discarded. -/
def Link.faultNotice (k : Link) (cause : LinkCause) : Notice :=
  .linkFault cause (k.count cause) (if cause = .overrun then k.lastKind else 0)
    (if cause = .overrun then k.lastTag else 0)

/-- R152: a link fault: the counter rises, and a LINK FAULT is made, or the cause's pending mark is set when the notice
queue is full; a fault of a cause whose mark is set only raises the counter. -/
def State.linkFault (s : State) (cause : LinkCause) : State :=
  let s := { s with link := s.link.raise cause }
  if s.link.isMarked cause then s
  else if s.hasRoom then s.enter (s.link.faultNotice cause)
  else { s with link := s.link.setMark true cause }

/-- R152: the first cause whose pending mark is set, in the order CHECK, LENGTH, OVERRUN. -/
def Link.firstMarked (k : Link) : Option LinkCause :=
  if k.checkMark then some .check
  else if k.lengthMark then some .length
  else if k.overrunMark then some .overrun
  else none

/-- R152: a pending LINK FAULT enters the notice queue as a place frees, and its mark is cleared. -/
def execPendingLinkFaultEntry (s : State) : Host.Outcome State Fault Refusal :=
  match s.link.firstMarked with
  | some cause =>
    if !s.ctl.pinHeld && s.hasRoom then
      .next ({ s with link := s.link.setMark false cause }.enter (s.link.faultNotice cause))
    else .next s
  | none => .next s

/-! ## CREDIT and frames received -/

/-- R158: CREDIT is taken. -/
def State.takeCredit (s : State) (count : Nat) : State :=
  { s with link := { s.link with credit := min Config.creditMax (s.link.credit + count) } }

/-- R158: a CREDIT of that count arrives and is taken at once, in every device state. -/
def execCredit (count : Nat) (s : State) : Host.Outcome State Fault Refusal :=
  if s.ctl.pinHeld then .next s else .next (s.takeCredit count)

/-- R154, R155: a good frame's request other than CREDIT, with the outstanding count below 16: refused at receipt or
queued. -/
def State.receiveRequest (s : State) (kind stream tag : Nat) (payload : List Byte) : State :=
  let s := { s with link := { s.link with outstanding := s.link.outstanding + 1 } }
  match ReqKind.ofCode kind with
  | none => s.pushReply ⟨kind, stream, tag, .refused .unknownKind, .none⟩
  | some k =>
    if payloadOk k payload then
      { s with link := { s.link with requests := s.link.requests ++ [⟨k, stream, tag, payload⟩] } }
    else s.pushReply ⟨kind, stream, tag, .refused .badLength, .none⟩

/-- R154, R155, R156, R158: the record of a good frame. -/
def State.receiveRecord (s : State) (kind stream tag : Nat) (payload : List Byte) : State :=
  if kind = ReqKind.credit.code then
    if payload.length = 1 then s.takeCredit (field payload 0 1) else s.linkFault .length
  else if Config.outstandingMax ≤ s.link.outstanding then
    { s with link := { s.link with lastKind := kind, lastTag := tag } }.linkFault .overrun
  else s.receiveRequest kind stream tag payload

/-- R151: the checks of a frame, in their order; the cause of the first that fails. -/
def frameFault (bytes : List Byte) : Option LinkCause :=
  let n := bytes.length
  let body := bytes.take (n - 4)
  if n < 10 then some .length
  else if (checkValue body).toNat ≠ beNat (bytes.drop (n - 4)) then some .check
  else if 4102 < field bytes 0 2 ∨ field bytes 0 2 ≠ n - 10 then some .length
  else none

/-- R150: the payload of a frame. -/
def framePayload (bytes : List Byte) : List Byte := (bytes.drop 6).take (bytes.length - 10)

/-- R151, R154, R155: FRAME RECEIVED. -/
def execFrameReceived (bytes : List Byte) (s : State) : Host.Outcome State Fault Refusal :=
  if s.ctl.pinHeld then .next s
  else
    match frameFault bytes with
    | some cause => .next (s.linkFault cause)
    | none => .next (s.receiveRecord (field bytes 2 1) (field bytes 3 1) (field bytes 4 2) (framePayload bytes))

/-! ## The transmit arbiter -/

/-- R159: the oldest notice of a class. -/
def firstOf (cls : Nat) (q : List Notice) : Option Notice := q.find? (fun n => n.cls == cls)

/-- R159: the slots in class 6's order, from the stream after the last one served. -/
def batchOrder (last : Nat) : List Nat := List.range' (last + 1) (Config.slotCount - last) ++ List.range' 1 last

/-- R159: the first made-batch place that holds a batch. -/
def State.nextBatch (s : State) : Option Nat :=
  (batchOrder s.link.lastServed).find? (fun n => (s.slot n).madeBatch.isSome)

/-- R159: the record the arbiter chooses. -/
def State.nextRecord (s : State) : Option TxSource :=
  if s.link.replies ≠ [] then some .reply
  else if (firstOf 2 s.link.notices).isSome then some (.notice 2)
  else if (firstOf 3 s.link.notices).isSome then some (.notice 3)
  else if (firstOf 4 s.link.notices).isSome then some (.notice 4)
  else if (firstOf 5 s.link.notices).isSome then some (.notice 5)
  else s.nextBatch.map TxSource.batch

/-- R159, R150: the frame of the record chosen. -/
def State.frameOf (s : State) : TxSource → List Byte
  | .reply => (s.link.replies.head?).elim [] Reply.frame
  | .notice c => (firstOf c s.link.notices).elim [] (fun n => n.frame (Config.noticeTag s.freeNext))
  | .batch n => (s.slot n).madeBatch.elim [] (fun b => batchFrame n b (Config.noticeTag s.freeNext))

/-- R159: the last stream served in class 6 after a choice. -/
def servedAfter (last : Nat) : TxSource → Nat
  | .reply => last
  | .notice _ => last
  | .batch n => n

/-- R159: the record chosen begins to be sent and spends one credit; the free tag of a notice or batch is used up. -/
def State.beginSending (s : State) (src : TxSource) : State :=
  { s with
    freeNext := if src = .reply then s.freeNext else s.freeNext + 1
    link := { s.link with
      credit := s.link.credit - 1
      lastServed := servedAfter s.link.lastServed src
      tx := some ⟨src, s.frameOf src⟩ } }

/-- R159: TRANSMIT START: the transmitter is free, the credit is above 0 and a record waits. -/
def execTransmitStart (s : State) : Host.Outcome State Fault Refusal :=
  match s.nextRecord with
  | some src =>
    if !s.ctl.pinHeld && s.link.tx.isNone && decide (0 < s.link.credit) then .next (s.beginSending src) else .next s
  | none => .next s

/-- R159: the oldest notice of a class leaves the notice queue. -/
def dropNotice (cls : Nat) (q : List Notice) : List Notice := q.eraseP (fun n => n.cls == cls)

/-- R167: the reply of a RESET that was taken. -/
def Reply.isReset (r : Reply) : Bool := r.kind == ReqKind.reset.code && r.status == .done

/-- R109, R16, R18, R113: a made-batch place empties: a due batch or the last batch is made at once, or STREAM CLOSED
may follow; in FAULT no batch is made. -/
def State.batchSent (s : State) (n : Nat) : State :=
  let s := s.setSlot n { s.slot n with madeBatch := none }
  if s.inService then
    if (s.slot n).finalMade then s.tryClose n
    else if (s.slot n).due || s.lastBatchDue n then s.makeBatch n
    else s
  else s

/-- R159, R155: the last byte of the frame has been sent, and its record leaves its place; after a RESET's reply the
reset takes effect (R167). -/
def State.finishSending (s : State) (src : TxSource) : State :=
  let s := { s with link := { s.link with tx := none } }
  match src with
  | .reply =>
    match s.link.replies with
    | r :: rest =>
      if r.isReset then s.resetTo .command s.ctl.pinHeld
      else { s with link := { s.link with replies := rest } }.lessOutstanding
    | [] => s
  | .notice c => { s with link := { s.link with notices := dropNotice c s.link.notices } }
  | .batch n => s.batchSent n

/-- R159: FRAME TRANSMITTED. -/
def execFrameTransmitted (s : State) (corrected : Nat := 0) : Host.Outcome State Fault Refusal :=
  match s.link.tx with
  | some t => if s.ctl.pinHeld then .next s else .next ((s.noteCorrected corrected).finishSending t.source)
  | none => .next s

end Sys2Proof.Machine
end

