-- ==== Sys2Proof/Machine/Release.lean ====
section
/-! DEFINITION. RELEASE and the release queue (R136 to R140), the completion of a release operation and of a sweep
operation (R99, R100), and the entry of a held RELEASE COMPLETE. -/

namespace Sys2Proof.Machine

/-! ## The tally and RELEASE COMPLETE -/

/-- R140: RELEASE COMPLETE enters the notice queue and the tally is discarded, or the notice waits. -/
def State.completeRelease (s : State) : State :=
  match s.index.tally with
  | some t =>
    if s.hasRoom then
      { s with index := { s.index with tally := none, completeHeld := false } }.enter
        (.releaseComplete t.tag t.branch t.found t.freed t.missed)
    else { s with index := { s.index with completeHeld := true } }
  | none => s

/-- R137: the tally of the RELEASE whose item is at the head, begun at zero counts with its first item. -/
def State.tallyFor (s : State) (it : ReleaseItem) : Tally :=
  match s.index.tally with
  | some t => t
  | none => ⟨it.tag, it.branch, 0, 0, 0⟩

/-- R138, R139: an item is counted, in the tally and in its branch's totals. -/
def State.countItem (s : State) (it : ReleaseItem) (found freed : Bool) : State :=
  let t := s.tallyFor it
  let t' :=
    if found then { t with found := t.found + 1, freed := if freed then t.freed + 1 else t.freed }
    else { t with missed := t.missed + 1 }
  let b := s.branch it.branch
  let b' :=
    if found then { b with relFound := satAdd Config.counterMax b.relFound 1 }
    else { b with relMissed := satAdd Config.counterMax b.relMissed 1 }
  { s with index := { s.index with tally := some t' } }.setBranch it.branch b'

/-- R137, R139: the release queue's new head: items whose length is out of range are counted missed at once, and the
first that is not waits for the port, its RELEASE's tally begun. While RELEASE COMPLETE waits the queue stands. -/
def State.advanceReleases (s : State) : List ReleaseItem → State
  | [] => { s with index := { s.index with releases := [] } }
  | it :: rest =>
    if s.index.completeHeld then { s with index := { s.index with releases := it :: rest } }
    else if it.sound then { s with index := { s.index with releases := it :: rest, tally := some (s.tallyFor it) } }
    else
      let s := s.countItem it false false
      (if it.last then s.completeRelease else s).advanceReleases rest

/-- R138, R139, R140: the item at the head has been dealt with; its operation gives up the port and bucket `b`. -/
def State.finishItem (s : State) (b : Nat) (it : ReleaseItem) (found freed : Bool) : State :=
  let s := s.countItem it found freed
  let s := { s with index := { s.index with other := none } }.leaveFlight b
  (if it.last then s.completeRelease else s).advanceReleases (s.index.releases.drop 1)

/-! ## RELEASE -/

/-- R136. -/
def takeRelease (r : Request) (s : State) : State :=
  let branch := field r.payload 0 1
  let count := field r.payload 1 1
  if s.ctl.dev ≠ .service then s.refuse r .badState
  else if count = 0 ∨ 64 < count then s.refuse r .range
  else if (s.branch branch).hold then s.refuse r .held
  else if Config.releaseMax < s.index.releases.length + count then s.refuse r .queueFull
  else
    (s.answer r .done (.release count)).advanceReleases
      (s.index.releases ++ releaseItems branch r.tag count (r.payload.drop 2))

/-- R136: RELEASE is taken by the branch monitor, and its items go to the index unit. -/
def execRelease (s : State) : Host.Outcome State Fault Refusal :=
  match s.headRequest .release with
  | some r => .next (takeRelease r s)
  | none => .next s

/-! ## The release operation -/

/-- R138, R139: the release operation of the item at the head makes its change. A removal waits while the placement
unit holds an event, and is held for its CONTAINER RECLAIMABLE (R96). -/
def State.releaseOp (s : State) : State :=
  match s.index.other, s.index.releases with
  | some (.release b), it :: _ =>
    match (s.search b it.fp it.length).found with
    | some (e, inSpill) =>
      if (s.container e.container).state = .lost then s.finishItem b it false false
      else if e.refs = Config.pinned then s.finishItem b it true false
      else if 1 < e.refs then (s.setRefs e inSpill b (e.refs - 1)).finishItem b it true false
      else if s.place.held.isSome then s
      else if s.removalNotice e.container && !s.hasRoom then s.holdPlace .release
      else (s.removeEntry e inSpill b).finishItem b it true true
    | none => s.finishItem b it false false
  | _, _ => s

/-- R73, R138, R76, R77: the release operation in progress completes; in FAULT its result is discarded. -/
def execReleaseOpDone (corrected : Nat) (s : State) : Host.Outcome State Fault Refusal :=
  match s.index.other with
  | some (.release _) =>
    if s.inService && s.place.held != some .release then .next (s.noteCorrected corrected).releaseOp
    else if s.inFault then .next (s.noteCorrected corrected)
    else .next s
  | _ => .next s

/-- R140: a waiting RELEASE COMPLETE enters, and the next item at the head makes its claim. -/
def execHeldReleaseCompleteEntry (s : State) : Host.Outcome State Fault Refusal :=
  if s.inService && s.index.completeHeld && s.hasRoom then
    .next (s.completeRelease.advanceReleases s.index.releases)
  else .next s

/-! ## The sweep operation -/

/-- R99: the spill entries that carry a bucket's number. The map keeps no order (R54); they are given in ascending
order of their keys (DESIGN CHOICE, log entry 41). -/
def State.spillOf (s : State) (b : Nat) : List IndexEntry :=
  s.index.spill.filterMap
    (fun p => match p.2 with | some x => if x.bucket = b then some x.entry else none | none => none)

/-- R99, R96: the entries of a bucket that name LOST containers are removed one by one. The flag is clear when the
operation waits, for the placement unit or for a notice's room. Whether the removals before the one that waits stand by
then is left open by R96 and R160: here they stand, and the operation goes on from the one that waits (DESIGN CHOICE,
log entry 45). -/
def State.sweepEntries (s : State) (b : Nat) : List (IndexEntry × Bool) → State × Bool
  | [] => (s, true)
  | (e, inSpill) :: rest =>
    if (s.container e.container).state = .lost then
      if s.place.held.isSome then (s, false)
      else if s.removalNotice e.container && !s.hasRoom then (s.holdPlace .sweep, false)
      else (s.removeEntry e inSpill b).sweepEntries b rest
    else s.sweepEntries b rest

/-- R99, R100: the operation gives up the bucket, the position advances, and the walker rests if no container is
LOST. -/
def State.finishSweep (s : State) (b : Nat) : State :=
  let s := { s with index := { s.index with other := none } }.leaveFlight b
  { s with walker := { s.walker with position := (s.walker.position + 1) % Config.bucketCount } }.restWalker

/-- R99: the entries a sweep of the bucket examines: the bucket's, and the spill table's when the spill count is above
0. Their order fixes that of the CONTAINER FREED notices and of joining the free list where one operation empties
several containers; the manual gives none, and here it is the bucket's oldest first and then the spill entries in
ascending order of their keys (DESIGN CHOICE, log entry 41). -/
def State.sweepList (s : State) (b : Nat) : List (IndexEntry × Bool) :=
  (s.bucket b).entries.map (fun e => (e, false)) ++
    if 0 < (s.bucket b).spill then (s.spillOf b).map (fun e => (e, true)) else []

/-- R99: the sweep operation in progress makes its change. -/
def State.sweepOp (s : State) : State :=
  match s.index.other with
  | some (.sweep b) =>
    let out := s.sweepEntries b (s.sweepList b)
    if out.2 then out.1.finishSweep b else out.1
  | _ => s

/-- R99, R76, R77: the sweep operation in progress completes; in FAULT its result is discarded. -/
def execSweepOpDone (corrected : Nat) (s : State) : Host.Outcome State Fault Refusal :=
  match s.index.other with
  | some (.sweep _) =>
    if s.inService && s.place.held != some .sweep then .next (s.noteCorrected corrected).sweepOp
    else if s.inFault then .next (s.noteCorrected corrected)
    else .next s
  | _ => .next s

end Sys2Proof.Machine
end

