-- ==== Sys2Proof/Machine/Controller.lean ====
section
/-! DEFINITION. The start-up and settings controller (chapter 10): the resets, start-up, STATUS, RESET, the settings
and their store, DECLARE, SEED, BEGIN SERVICE, and the fault state. -/

namespace Sys2Proof.Machine

/-! ## Resets and start-up -/

/-- R166: power-on. The pin is an input from outside, and a pin held at power-on keeps the engine in reset. -/
def execPowerOnReset (s : State) : Host.Outcome State Fault Refusal := .next (s.resetTo .power s.ctl.pinHeld)

/-- R166: the reset pin is asserted: the reset takes effect, and the engine stays in reset while the pin is held. -/
def execResetPinAssert (s : State) : Host.Outcome State Fault Refusal := .next (s.resetTo .pin true)

/-- R166: the pin is released: the engine begins STARTING, with the settings loaded and the clearing begun. -/
def execResetPinRelease (s : State) : Host.Outcome State Fault Refusal :=
  if s.ctl.pinHeld then .next (s.resetTo s.ctl.cause false) else .next s

/-- R168: the READY notice. -/
def Ctl.readyNotice (c : Ctl) : Notice := .ready c.cause c.settingsValid c.storeState

/-- R168: READY enters the notice queue and the device enters RESTORE, or READY is held. -/
def State.makeReady (s : State) : State :=
  if s.hasRoom then
    { s with ctl := { s.ctl with dev := .restore, readyHeld := false } }.enter s.ctl.readyNotice
  else { s with ctl := { s.ctl with readyHeld := true } }

/-- R168, R51, R54, R78: the clearing of index memory completes. -/
def execIndexMemoryClearDone (s : State) : Host.Outcome State Fault Refusal :=
  if s.ctl.dev = .starting ∧ s.ctl.clearing = true ∧ s.ctl.pinHeld = false then
    .next
      { s with
        ctl := { s.ctl with clearing := false }
        index := { s.index with buckets := [], spill := [], entryCount := 0, spillCount := 0 }
        place := { s.place with containers := [] } }.makeReady
  else .next s

/-- R168: a held READY enters, and the device enters RESTORE. -/
def execHeldReadyEntry (s : State) : Host.Outcome State Fault Refusal :=
  if s.ctl.dev = .starting ∧ s.ctl.readyHeld = true ∧ s.ctl.pinHeld = false ∧ s.hasRoom = true then .next s.makeReady
  else .next s

/-! ## STATUS and RESET -/

/-- R175: the figures of STATUS. -/
def State.statusFigures (s : State) : StatusFigures :=
  { dev := s.ctl.dev, cause := s.ctl.cause, settingsValid := s.ctl.settingsValid, store := s.ctl.storeState,
    freeList := s.place.freeList.length, spill := s.index.spillCount, entries := s.index.entryCount,
    check := s.link.checkCount, length := s.link.lengthCount, overrun := s.link.overrunCount,
    corrected := s.ctl.corrected, lanes := s.lanesWorking, streams := s.streamsOpen, fault := s.ctl.faultCause }

/-- R175: STATUS is taken in every device state. -/
def execStatus (s : State) : Host.Outcome State Fault Refusal :=
  match s.headRequest .status with
  | some r => .next (s.answer r .done (.status s.statusFigures))
  | none => .next s

/-- R167: RESET is taken in RESTORE, SERVICE and FAULT; its reply is made at once and the controller takes no further
request. -/
def takeReset (r : Request) (s : State) : State :=
  if s.ctl.dev = .starting then s.refuse r .badState
  else { s with ctl := { s.ctl with resetTaken := true } }.answer r .done .none

/-- R167: RESET is taken by the controller. -/
def execReset (s : State) : Host.Outcome State Fault Refusal :=
  match s.headRequest .reset with
  | some r => .next (takeReset r s)
  | none => .next s

/-! ## Settings -/

/-- R165: RESTORE or SERVICE. -/
def DevState.takesSettings (d : DevState) : Bool := d == .restore || d == .service

/-- R170. -/
def takeSetSetting (r : Request) (s : State) : State :=
  let number := field r.payload 0 1
  let v := field r.payload 1 4
  if s.ctl.dev.takesSettings = false then s.refuse r .badState
  else if s.ctl.storeState = .saving then s.refuse r .settingsBusy
  else
    match settingRange number with
    | none => s.refuse r .range
    | some (lo, hi) =>
      let x := clampTo lo hi v
      { s with ctl := { s.ctl with settings := s.ctl.settings.set number x } }.answer r
        (if x = v then .done else .clamped) (.setSetting number x)

/-- R170: SET SETTING is taken by the controller. -/
def execSetSetting (s : State) : Host.Outcome State Fault Refusal :=
  match s.headRequest .setSetting with
  | some r => .next (takeSetSetting r s)
  | none => .next s

/-- R171. -/
def takeSaveSettings (r : Request) (s : State) : State :=
  if s.ctl.dev.takesSettings = false then s.refuse r .badState
  else if s.ctl.storeState = .saving then s.refuse r .settingsBusy
  else
    { s with ctl := { s.ctl with storeState := .saving, programming := some s.ctl.settings } }.answer r .done .none

/-- R171: SAVE SETTINGS is taken by the controller. -/
def execSaveSettings (s : State) : Host.Outcome State Fault Refusal :=
  match s.headRequest .saveSettings with
  | some r => .next (takeSaveSettings r s)
  | none => .next s

/-- R171: SETTINGS SAVED enters the notice queue and the store state becomes VALID, or the notice is held. -/
def State.makeSaved (s : State) (w : Settings) : State :=
  if s.hasRoom then
    { s with ctl := { s.ctl with storeState := .valid, savedHeld := none } }.enter (.settingsSaved w)
  else { s with ctl := { s.ctl with savedHeld := some w } }

/-- R171: programming ends: the store holds the new copy whatever becomes of the notice; in FAULT too. -/
def execSettingsProgramDone (s : State) : Host.Outcome State Fault Refusal :=
  match s.ctl.programming with
  | some w =>
    if s.ctl.pinHeld then .next s
    else .next ({ s with ctl := { s.ctl with programming := none, storeCopy := some w } }.makeSaved w)
  | none => .next s

/-- R171, R162: a held SETTINGS SAVED enters, in FAULT too. -/
def execHeldSettingsSavedEntry (s : State) : Host.Outcome State Fault Refusal :=
  match s.ctl.savedHeld with
  | some w => if s.ctl.pinHeld = false ∧ s.hasRoom = true then .next (s.makeSaved w) else .next s
  | none => .next s

/-! ## DECLARE -/

/-- R172: the fields of a DECLARE are in range. -/
def declareOk (p : List Byte) : Bool :=
  let cap := field p 3 4
  field p 11 1 == 3 && decide (field p 2 1 < Config.groupCount) &&
    decide (cap % Config.mib = 0 ∧ 4194304 ≤ cap ∧ cap ≤ 67108864) && decide (field p 7 4 ≤ cap)

/-- R172. -/
def takeDeclare (r : Request) (s : State) : State :=
  let c := field r.payload 0 2
  if s.ctl.dev ≠ .restore then s.refuse r .badState
  else if declareOk r.payload = false then s.refuse r .range
  else if (s.container c).state ≠ .free then s.refuse r .badState
  else
    (s.setContainer c ⟨.durable, some (field r.payload 2 1), field r.payload 3 4, field r.payload 7 4, 0, 0⟩).answer r
      .done .none

/-- R172: DECLARE is taken by the controller. -/
def execDeclare (corrected : Nat) (s : State) : Host.Outcome State Fault Refusal :=
  match s.headRequest .declare with
  | some r => .next (takeDeclare r (s.noteCorrected corrected))
  | none => .next s

/-! ## The entry into FAULT -/

/-- R162, R173, R174: a request that a block holds or works at the entry into FAULT. -/
def State.requestHeld (s : State) : Bool :=
  s.marks.ackHeld || s.place.held == some .request || s.ctl.seedWork.isSome || s.ctl.beginWork.isSome

/-- R162, R173, R174: that request is answered REFUSED BAD-STATE and its block holds it no longer. -/
def State.refuseHeld (s : State) : State :=
  if s.requestHeld then
    let s := { s with
      marks := { s.marks with ackHeld := false }
      ctl := { s.ctl with seedWork := none, beginWork := none }
      place := { s.place with held := if s.place.held = some PlaceHold.request then none else s.place.held } }
    match s.link.requests with
    | r :: _ => s.refuse r .badState
    | [] => s
  else s

/-- R176: the device enters FAULT, and the FAULT notice is made or kept pending. -/
def State.enterFault (s : State) : State :=
  let before := s.ctl.dev
  let s := s.refuseHeld
  let s := { s with ctl := { s.ctl with dev := .fault, faultCause := true } }
  if s.hasRoom then s.enter (.fault before) else { s with ctl := { s.ctl with faultPending := some before } }

/-! ## SEED -/

/-- R173: conditions 1 and 2, judged from the container record. -/
def State.seedContainerBad (s : State) (e : SeedEntry) : Bool := (s.container e.container).state != .durable

/-- R173: condition 2. -/
def State.seedFieldBad (s : State) (e : SeedEntry) : Bool :=
  e.length == 0 || decide (Config.lengthMax < e.length) || e.refs == 0 ||
    decide ((s.container e.container).fill < e.offset + e.length)

/-- R173, R176: the entries are judged one after another until one claims the port, or all have been dealt with and the
reply is made, or the read of an entry's container record meets an uncorrectable error: `bad` is the place of that entry
in the list. The entries taken before it stay, and the SEED is refused at the entry into FAULT. -/
def State.runSeed (s : State) (bad : Option Nat) (w : SeedWork) : List SeedEntry → State
  | e :: rest =>
    if bad = some 0 then
      { s with ctl := { s.ctl with seedWork := some { w with rest := e :: rest } } }.enterFault
    else if s.seedContainerBad e then s.runSeed (bad.map (· - 1)) { w with container := w.container + 1 } rest
    else if s.seedFieldBad e then s.runSeed (bad.map (· - 1)) { w with field := w.field + 1 } rest
    else
      ({ s with
        ctl := { s.ctl with seedWork := some { w with rest := e :: rest } }
        index := { s.index with other := some (.seed (bucketOf e.fp)) } }).enterFlight (bucketOf e.fp)
  | [] =>
    let s := { s with ctl := { s.ctl with seedWork := none } }
    match s.link.requests with
    | r :: _ => s.answer r .done (.seed w.taken w.field w.container w.duplicate w.room)
    | [] => s

/-- R173. -/
def takeSeed (r : Request) (bad : Option Nat) (s : State) : State :=
  let count := field r.payload 0 1
  if s.ctl.dev ≠ .restore then s.refuse r .badState
  else if count = 0 ∨ Config.seedMax < count then s.refuse r .range
  else s.runSeed bad ⟨[], 0, 0, 0, 0, 0⟩ (seedEntries count (r.payload.drop 1))

/-- R173: SEED begins to be worked by the controller; it stays at the head of the request queue until its reply. -/
def execSeed (corrected : Nat) (s : State) (bad : Option Nat := none) : Host.Outcome State Fault Refusal :=
  match s.headRequest .seed with
  | some r => .next (takeSeed r bad (s.noteCorrected corrected))
  | none => .next s

/-- R173, R79: a seed entry taken: its index entry and its container's accounting. -/
def State.takeSeedEntry (s : State) (e : SeedEntry) (count : Nat) : State :=
  let k := s.container e.container
  (s.insertEntry ⟨e.fp, e.length, e.container, e.offset, e.refs⟩ count).setContainer e.container
    { k with entries := k.entries + 1, live := k.live + e.length }

/-- R173: the bucket operation of the seed entry in hand makes its change, and the next entries are judged, up to the
one whose read meets an uncorrectable error if `bad` gives its place. -/
def State.seedOp (s : State) (bad : Option Nat) : State :=
  match s.ctl.seedWork, s.index.other with
  | some w, some (.seed b) =>
    match w.rest with
    | e :: rest =>
      let found := s.search b e.fp e.length
      let s' := { s with index := { s.index with other := none } }.leaveFlight b
      if found.found.isSome then s'.runSeed bad { w with rest := [], duplicate := w.duplicate + 1 } rest
      else if s.indexRoom found.count then
        (s'.takeSeedEntry e found.count).runSeed bad { w with rest := [], taken := w.taken + 1 } rest
      else s'.runSeed bad { w with rest := [], room := w.room + 1 } rest
    | [] => s
  | _, _ => s

/-- R173, R76, R77: SEED OP DONE; in FAULT the operation's result is discarded. -/
def execSeedOpDone (corrected : Nat) (s : State) (bad : Option Nat := none) : Host.Outcome State Fault Refusal :=
  match s.index.other with
  | some (.seed _) =>
    if s.ctl.dev = .restore ∧ s.ctl.pinHeld = false then .next ((s.noteCorrected corrected).seedOp bad)
    else if s.inFault then .next (s.noteCorrected corrected)
    else .next s
  | _ => .next s

/-! ## Fault -/

/-- R176, R77: an index-memory error that the check cannot correct. In FAULT any error is only counted; in STARTING the
clearing reads nothing, so there is none (R168). -/
def execIndexMemoryError (s : State) : Host.Outcome State Fault Refusal :=
  if s.ctl.pinHeld then .next s
  else
    match s.ctl.dev with
    | .restore => .next s.enterFault
    | .service => .next s.enterFault
    | .fault => .next (s.noteCorrected 1)
    | .starting => .next s

/-- R176: a pending FAULT notice enters. -/
def execPendingFaultEntry (s : State) : Host.Outcome State Fault Refusal :=
  match s.ctl.faultPending with
  | some before =>
    if s.ctl.pinHeld = false ∧ s.hasRoom = true then
      .next ({ s with ctl := { s.ctl with faultPending := none } }.enter (.fault before))
    else .next s
  | none => .next s

/-! ## BEGIN SERVICE -/

/-- R174 step 1: the containers in ascending order; each that is DURABLE without entries becomes RECLAIMABLE with its
notice. The flag is clear when the step waits for room. -/
def State.reclaimRun (s : State) (made : Nat) : List (Nat × Container) → State × Nat × Bool
  | [] => (s, made, true)
  | (c, k) :: rest =>
    if k.state = .durable ∧ k.entries = 0 then
      if s.hasRoom then (s.reclaim c).reclaimRun (made + 1) rest else (s, made, false)
    else s.reclaimRun made rest

/-- R174 step 2, R89: every FREE container's number joins the free list, the device enters SERVICE, and the reply is
made. -/
def State.enterService (s : State) (made : Nat) : State :=
  let list := (List.range Config.containerCount).filter (fun c => (s.container c).state == .free)
  let s := { s with
    place := { s.place with freeList := list }
    ctl := { s.ctl with dev := .service, beginWork := none } }
  match s.link.requests with
  | r :: _ => s.answer r .done (.beginService list.length made)
  | [] => s

/-- R174: the records step 1 reads: all, or those before the one whose read meets an uncorrectable error. -/
def recordsBefore (bad : Option Nat) (t : Table Container) : Table Container :=
  match bad with
  | some b => t.filter (fun p => decide (p.1 < b))
  | none => t

/-- R174: BEGIN SERVICE worked from its present point; held for room, ended by an error, or finished. -/
def State.runBegin (s : State) (made : Nat) (bad : Option Nat) : State :=
  match s.reclaimRun made (recordsBefore bad s.place.containers) with
  | (s', made', false) => { s' with ctl := { s'.ctl with beginWork := some made' } }
  | (s', made', true) =>
    if bad.isSome then { s' with ctl := { s'.ctl with beginWork := some made' } }.enterFault
    else s'.enterService made'

/-- R174. -/
def takeBeginService (r : Request) (bad : Option Nat) (s : State) : State :=
  if s.ctl.dev ≠ .restore then s.refuse r .badState else s.runBegin 0 bad

/-- R174: BEGIN SERVICE is taken by the controller. -/
def execBeginService (corrected : Nat) (bad : Option Nat) (s : State) : Host.Outcome State Fault Refusal :=
  match s.headRequest .beginService with
  | some r => .next (takeBeginService r bad (s.noteCorrected corrected))
  | none => .next s

/-! ## A held container notice -/

/-- R96: the container request at the head, gone on with. -/
def State.resumeRequest (s : State) : State :=
  match s.link.requests with
  | r :: _ =>
    match r.kind with
    | .durable => takeDurable r s
    | .lost => takeLost r s
    | .flush => takeFlush r s
    | _ => s
  | [] => s

/-- R96, R85: the held STARVED notice enters. -/
def State.resumeStarved (s : State) : State :=
  match s.index.lookups with
  | q :: _ => s.enter (s.starvedNotice q)
  | [] => s

/-- R96: room has freed: the held event goes on. -/
def State.resumePlace (s : State) (h : PlaceHold) : State :=
  let s := s.unholdPlace
  match h with
  | .apply => s.applyHead
  | .release => s.releaseOp
  | .sweep => s.sweepOp
  | .request => s.resumeRequest
  | .seal n => s.checkMark n
  | .starved => s.resumeStarved

/-- R96, R122, R174: a held container notice enters with its transition and the held event goes on; then the seals'
closes that wait behind it. -/
def execHeldContainerNoticeEntry (corrected : Nat) (bad : Option Nat) (s : State) :
    Host.Outcome State Fault Refusal :=
  if s.ctl.pinHeld = true ∨ s.hasRoom = false then .next s
  else
    match s.ctl.dev, s.ctl.beginWork, s.place.held with
    | .restore, some made, _ => .next ((s.noteCorrected corrected).runBegin made bad)
    | .service, _, some h =>
      let s := (s.noteCorrected corrected).resumePlace h
      .next (s.checkMarks s.slotNumbers)
    | _, _, _ => .next s

end Sys2Proof.Machine
end

