-- ==== Sys2Proof/Machine/Lanes.lean ====
section
/-! DEFINITION. The chunking lanes (chapter 2): the boundary computation, a cut, waiting for the lookup queue, the
markers, and the end of an entry. -/

namespace Sys2Proof.Machine

/-! ## The boundary computation -/

/-- R24: the gear value of a byte. -/
def Profile.gearOf (p : Profile) (b : Byte) : Word32 := p.gear.getD b.toNat 0

/-- R26: a byte is taken into the context. -/
def Ctx.take (p : Profile) (x : Ctx) (b : Byte) : Ctx :=
  { x with hash := 2 * x.hash + p.gearOf b, len := x.len + 1, acc := b :: x.acc }

/-- R27: H is a multiple of 2^k. -/
def multipleOf (h : Word32) (k : Nat) : Bool := h.toNat % 2 ^ k == 0

/-- R27: the first test that holds after a byte. -/
def cutTest (p : Profile) (x : Ctx) : Option CutReason :=
  if x.len = p.lmax then some .max
  else if p.lmin ≤ x.len ∧ x.len < p.ltgt ∧ multipleOf x.hash p.ks = true then some .strict
  else if p.ltgt ≤ x.len ∧ multipleOf x.hash p.kl = true then some .loose
  else none

/-- R26, R27: bytes are taken until one passes a test: the context after it, the bytes not taken, and the cut reason,
none when the bytes run out. -/
def scan (p : Profile) : Ctx → List Byte → Ctx × List Byte × Option CutReason
  | x, [] => (x, [], none)
  | x, b :: t =>
    match cutTest p (x.take p b) with
    | some r => (x.take p b, t, some r)
    | none => scan p (x.take p b) t

/-- R28 step 3: the context after the chunk has been submitted. -/
def Ctx.cleared (x : Ctx) : Ctx := ⟨0, 0, x.start + x.len, []⟩

/-! ## Submitting a chunk -/

/-- R32, R35, R53: the lookup of the chunk that stands in the context. -/
def State.chunkLookup (s : State) (n : Nat) (x : Ctx) (cut : CutReason) : Lookup :=
  let fp := Config.fingerprint x.acc.reverse
  { slot := n, span := (s.slot n).current.elim 0 (fun sp => sp.number), start := x.start, length := x.len, fp := fp,
    cut := cut, bucket := bucketOf fp }

/-- R36: no place of the lookup queue is left for a lane: 64 lookups, counting the place that is owed to each WAITING
lane (log entry 9). -/
def State.lookupsFull (s : State) : Bool :=
  decide (Config.lookupMax ≤ s.index.lookups.length + s.waitOrder.length)

/-- R36: the lane becomes WAITING with its finished lookup. -/
def State.laneWait (s : State) (l : Nat) (w : Work) (lk : Lookup) : State :=
  { s.setLane l ⟨.waiting, some { w with held := some lk }⟩ with waitOrder := s.waitOrder ++ [l] }

/-- R28: a WORKING lane with a data entry cuts at the first byte that passes a test; with none the event does not
occur. -/
def State.cutData (s : State) (l : Nat) (w : Work) : State :=
  match scan w.profile w.ctx w.rest with
  | (x, rest, some cut) =>
    let w := { w with ctx := x, rest := rest }
    let lk := s.chunkLookup w.slot x cut
    if s.lookupsFull then s.laneWait l w lk
    else (s.joinLookup lk).setLane l ⟨.working, some { w with ctx := x.cleared }⟩
  | (_, _, none) => s

/-- R28: LANE CUT. -/
def execLaneCut (lane : Nat) (s : State) : Host.Outcome State Fault Refusal :=
  match s.lane lane with
  | ⟨.working, some w⟩ =>
    match w.entry with
    | .data _ _ => if s.inService then .next (s.cutData lane w) else .next s
    | .mark _ => .next s
    | .endMark _ => .next s
  | _ => .next s

/-! ## Markers -/

/-- R30, R31: the context after a marker at offset `m`. -/
def Ctx.atMarker (m : Nat) : Ctx := ⟨0, 0, m, []⟩

/-- R30, R115: the lane reports a MARK marker consumed to the mark unit. -/
def State.reportMark (s : State) (l : Nat) (w : Work) (m : Nat) : State :=
  ((s.setLane l ⟨.working, some { w with ctx := .atMarker m, markerDone := true, held := none }⟩).setSlot w.slot
    ((s.slot w.slot).startSpan m)).checkMark w.slot

/-- R31, R110: the lane reports the END marker consumed to the stream table; the last batch may be due. -/
def State.reportEnd (s : State) (l : Nat) (w : Work) (m : Nat) : State :=
  let n := w.slot
  let s := (s.setLane l ⟨.working, some { w with ctx := .atMarker m, markerDone := true, held := none }⟩).setSlot n
    { s.slot n with endConsumed := true }
  if s.lastBatchDue n then s.callBatch n else s

/-- R30, R31: at a marker the lane cuts an open chunk and reports the marker consumed, or waits for the lookup
queue. -/
def State.cutMarker (s : State) (l : Nat) (w : Work) (cut : CutReason) (report : State → State) : State :=
  if 0 < w.ctx.len then
    let lk := s.chunkLookup w.slot w.ctx cut
    if s.lookupsFull then s.laneWait l w lk else report (s.joinLookup lk)
  else report s

/-- R30: LANE MARK MARKER. -/
def execLaneMarkMarker (lane corrected : Nat) (s : State) : Host.Outcome State Fault Refusal :=
  match s.lane lane with
  | ⟨.working, some w⟩ =>
    match w.entry with
    | .mark m =>
      if s.inService && !w.markerDone then
        .next ((s.noteCorrected corrected).cutMarker lane w .mark (fun s => s.reportMark lane w m))
      else .next s
    | .data _ _ => .next s
    | .endMark _ => .next s
  | _ => .next s

/-- R31: LANE END MARKER. -/
def execLaneEndMarker (lane : Nat) (s : State) : Host.Outcome State Fault Refusal :=
  match s.lane lane with
  | ⟨.working, some w⟩ =>
    match w.entry with
    | .endMark m =>
      if s.inService && !w.markerDone then .next (s.cutMarker lane w .endCut (fun s => s.reportEnd lane w m))
      else .next s
    | .data _ _ => .next s
    | .mark _ => .next s
  | _ => .next s

/-! ## A WAITING lane -/

/-- R36: the lookup of the WAITING lane joins the queue and the lane goes on with its entry. -/
def State.laneResume (s : State) (l : Nat) (w : Work) (lk : Lookup) : State :=
  let s := { s.joinLookup lk with waitOrder := s.waitOrder.drop 1 }
  match w.entry with
  | .data _ _ => s.setLane l ⟨.working, some { w with ctx := w.ctx.cleared, held := none }⟩
  | .mark m => s.reportMark l w m
  | .endMark m => s.reportEnd l w m

/-- R36: LANE LOOKUP JOIN: a place of the lookup queue has freed, and the earliest WAITING lane takes it. -/
def execLaneLookupJoin (corrected : Nat) (s : State) : Host.Outcome State Fault Refusal :=
  match s.waitOrder with
  | l :: _ =>
    match s.lane l with
    | ⟨.waiting, some w⟩ =>
      match w.held with
      | some lk =>
        if s.inService && decide (s.index.lookups.length < Config.lookupMax) then
          .next ((s.noteCorrected corrected).laneResume l w lk)
        else .next s
      | none => .next s
    | _ => .next s
  | [] => .next s

/-! ## The end of an entry -/

/-- R37 steps 1 and 2, R14: the context is stored back, the queue place freed, and for data the consumed offset and the
total of bytes consumed raised. R13, R14 and R37 raise them here alone, at the end of the entry, although R14 also says
that the NEW, DUP and PASS bytes together never exceed the bytes consumed; a chunk cut and applied in the middle of an
entry makes them exceed it until this point (DESIGN CHOICE, log entry 42). -/
def Slot.finishEntry (sl : Slot) (x : Ctx) (length : Nat) : Slot :=
  { sl with
    ctx := some x
    queue := sl.queue.drop 1
    consumed := sl.consumed + length
    totals := { sl.totals with consumed := sl.totals.consumed + length } }

/-- R37, R111: the lane finishes its entry and lets the stream go; an ABORTING stream's last batch may be due. -/
def State.finishEntry (s : State) (l n : Nat) (x : Ctx) (length : Nat) : State :=
  let s := (s.setSlot n ((s.slot n).finishEntry x length)).setLane l .idle
  if s.lastBatchDue n then s.callBatch n else s

/-- R37, R26: LANE ENTRY FINISH: the last bytes are taken without a cut, or the marker has been reported. -/
def execLaneEntryFinish (lane : Nat) (s : State) (corrected : Nat := 0) : Host.Outcome State Fault Refusal :=
  match s.lane lane with
  | ⟨.working, some w⟩ =>
    if s.inService then
      match w.entry with
      | .data _ bytes =>
        match scan w.profile w.ctx w.rest with
        | (x, _, none) => .next ((s.noteCorrected corrected).finishEntry lane w.slot x bytes.length)
        | (_, _, some _) => .next s
      | .mark _ =>
        if w.markerDone then .next ((s.noteCorrected corrected).finishEntry lane w.slot w.ctx 0) else .next s
      | .endMark _ =>
        if w.markerDone then .next ((s.noteCorrected corrected).finishEntry lane w.slot w.ctx 0) else .next s
    else .next s
  | _ => .next s

end Sys2Proof.Machine
end

