-- ==== Sys2Proof/Machine/Scheduler.lean ====
section
/-! DEFINITION. The lane scheduler (chapter 3) and the tick generator's work: GRANT, TICK, PACING MATCH and MARK
TIMER LIMIT. -/

namespace Sys2Proof.Machine

/-! ## Frames and grants -/

/-- R45: the slots in order from the start slot, wrapping from 64 to 1. -/
def State.searchOrder (s : State) : List Nat :=
  let a := s.sched.startSlot
  List.range' a (Config.slotCount + 1 - a) ++ List.range' 1 (a - 1)

/-- R41: the eligible streams, in slot order. -/
def State.eligibleSlots (s : State) : List Nat := (List.range' 1 Config.slotCount).filter s.eligible

/-- R44: whether a new frame begins at this opportunity. -/
def State.frameEnds (s : State) : Bool :=
  let e := s.eligibleSlots
  decide (s.sched.frameLen ≤ s.sched.grantCount) ||
    (!e.isEmpty && e.all (fun n => (s.slot n).budget == 0) &&
      e.any (fun n => decide (0 < (s.slot n).activeWeight) || decide (0 < (s.slot n).pendingWeight.getD 0)))

/-- R44: what a frame start does in a slot that is not FREE. -/
def Slot.frameStart (sl : Slot) : Slot :=
  if sl.state = .free then sl
  else
    let w := sl.pendingWeight.getD sl.activeWeight
    { sl with activeWeight := w, pendingWeight := none, budget := w }

/-- R44, R40: a new frame begins. -/
def State.frameStart (s : State) : State :=
  { s.mapSlots Slot.frameStart with
    sched :=
      { frameLen := 2 ^ s.ctl.settings.frameExp
        grantCount := 0
        startSlot := if s.sched.startSlot = Config.slotCount then 1 else s.sched.startSlot + 1 } }

/-- R45: the first eligible stream with budget. -/
def State.chosen (s : State) : Option Nat :=
  s.searchOrder.find? (fun n => s.eligible n && decide (0 < (s.slot n).budget))

/-- R43: the lowest-numbered IDLE lane. -/
def State.idleLane (s : State) : Option Nat :=
  (List.range' 1 Config.laneCount).find? (fun l => (s.lane l).state == .idle)

/-- R34: the bytes of an entry. -/
def Entry.bytes : Entry → List Byte
  | .data _ bytes => bytes
  | .mark _ => []
  | .endMark _ => []

/-- R34, R45: the stream's head entry is granted to the lane. -/
def State.grantTo (s : State) (l n : Nat) : State :=
  let sl := s.slot n
  match sl.queue, sl.ctx, sl.profile with
  | e :: _, some x, some p =>
    let s := { s.setSlot n { sl with budget := sl.budget - 1 } with
      sched := { s.sched with grantCount := s.sched.grantCount + 1 } }
    s.setLane l ⟨.working, some ⟨n, e, e.bytes, p, x, false, none⟩⟩
  | _, _, _ => s

/-- R43, R44, R45: GRANT: one look of the scheduler, with a frame start if one is due and then at most one grant. -/
def execGrant (s : State) : Host.Outcome State Fault Refusal :=
  match s.idleLane with
  | some l =>
    if s.inService && !s.eligibleSlots.isEmpty then
      let s := if s.frameEnds then s.frameStart else s
      match s.chosen with
      | some n => .next (s.grantTo l n)
      | none => .next s
    else .next s
  | none => .next s

/-! ## The tick -/

/-- R104, R105: a match of the pacing counter: it clears, a pending period becomes active, and a batch is called for if
verdicts are filled. -/
def State.pacingMatch (s : State) (n : Nat) : State :=
  let s := s.setSlot n (s.slot n).clearPacing
  if (s.slot n).filled.isEmpty then s else s.callBatch n

/-- R104: the counter of the slot runs, and stands one below its active period. -/
def Slot.atMatch (sl : Slot) : Bool :=
  sl.state != .free && !sl.finalMade && sl.activePacing == some (sl.pacingCounter + 1)

/-- R104: the pacing counter of a slot at a tick; after the last batch it keeps its value. -/
def State.tickPacing (s : State) (n : Nat) : State :=
  let sl := s.slot n
  if sl.atMatch then s.pacingMatch n
  else if sl.state = .free ∨ sl.finalMade = true then s
  else s.setSlot n { sl with pacingCounter := sl.pacingCounter + 1 }

/-- R125: the mark's next tick brings its timer to its limit. -/
def Slot.atLimit (sl : Slot) : Bool := sl.mark.phase != .none && decide (sl.mark.limit ≤ sl.mark.timer + 1)

/-- R125, R126: the mark timer of a slot at a tick. -/
def State.tickMark (s : State) (n : Nat) : State :=
  let sl := s.slot n
  if sl.atLimit then s.violate n
  else if sl.mark.phase = .none then s
  else s.setSlot n { sl with mark := { sl.mark with timer := sl.mark.timer + 1 } }

/-- R127: the report's age at a tick. -/
def State.tickAge (s : State) (n : Nat) : State :=
  let sl := s.slot n
  match sl.reportSlot with
  | some (rep, age) => s.setSlot n { sl with reportSlot := some (rep, satAdd Config.counterMax age 1) }
  | none => s

/-- One tick of a slot: the report's age, then the pacing counter, then the mark timer. -/
def State.tickSlot (s : State) (n : Nat) : State := ((s.tickAge n).tickPacing n).tickMark n

/-- The slots ticked one after another. -/
def State.tickSlots (s : State) : List Nat → State
  | [] => s
  | n :: ns => (s.tickSlot n).tickSlots ns

/-- R104, R125, R127, R113, R133: TICK: one millisecond of every slot, in slot order; nothing counts outside SERVICE
(log entry 7). -/
def execTick (s : State) (corrected : Nat := 0) : Host.Outcome State Fault Refusal :=
  if s.inService then .next ((s.noteCorrected corrected).tickSlots s.slotNumbers) else .next s

/-- R104: PACING MATCH: the tick at which the slot's counter stands one below its period, as that slot's counter takes
it (log entry 7). -/
def execPacingMatch (slot : Nat) (s : State) (corrected : Nat := 0) : Host.Outcome State Fault Refusal :=
  if s.inService && (s.slot slot).atMatch then .next ((s.noteCorrected corrected).pacingMatch slot) else .next s

/-- R126: MARK TIMER LIMIT: the tick that brings the mark's timer to its limit, as that mark takes it (log entry 7). -/
def execMarkTimerLimit (slot : Nat) (s : State) (corrected : Nat := 0) : Host.Outcome State Fault Refusal :=
  if s.inService && (s.slot slot).atLimit then .next ((s.noteCorrected corrected).violate slot) else .next s

end Sys2Proof.Machine
end

