-- ==== Sys2Proof/Machine/Streams.lean ====
section
/-! DEFINITION. The stream table's requests (chapter 1): OPEN, DATA, SET WEIGHT, SET PACING, SNAPSHOT, CLOSE, ABORT,
and the entry of a held DATA REFUSED. Each request's command is its taking by the owner at the head of the request
queue (R156); where the owner does not take it now, the event does not occur. -/

namespace Sys2Proof.Machine

/-! ## OPEN -/

/-- R9: the slot as OPEN fills it. -/
def openedSlot (branch group : Nat) (v : OpenValues) : Slot :=
  { Slot.free with
    state := .active
    branch := some branch
    group := some group
    profile := some v.profile
    interval := some v.interval
    lengthCheck := some v.lengthCheck
    activeWeight := v.weight
    activePacing := some v.pacing
    threshold := some v.threshold
    ctx := some ⟨0, 0, 0, []⟩
    current := some (.fresh 0 0)
    budget := v.weight }

/-- R6, R9: the lowest-numbered FREE slot. -/
def State.lowestFree (s : State) : Option Nat :=
  (List.range' 1 Config.slotCount).find? (fun n => (s.slot n).state == .free)

/-- R10: the branch's record takes the slot, and its margin at its first binding since the reset. -/
def Branch.bind (b : Branch) (slot margin : Nat) : Branch :=
  { b with bound := some slot, margin := match b.margin with | some m => some m | none => some margin }

/-- R9, R10: OPEN takes the slot. -/
def State.openSlot (s : State) (n branch group : Nat) (v : OpenValues) : State :=
  (s.setSlot n (openedSlot branch group v)).setBranch branch ((s.branch branch).bind n s.ctl.settings.margin)

/-- R6, R7, R8, R9. -/
def takeOpen (r : Request) (s : State) : State :=
  let branch := field r.payload 0 1
  let group := field r.payload 1 1
  if s.ctl.dev ≠ .service then s.refuse r .badState
  else
    match parseBlocks (r.payload.drop 2) with
    | none => s.refuse r .badProfile
    | some blocks =>
      if Config.groupCount ≤ group then s.refuse r .range
      else if (s.branch branch).bound.isSome then s.refuse r .branchBusy
      else
        match gatherOpen s.ctl.settings blocks with
        | none => s.refuse r .badProfile
        | some v =>
          match s.lowestFree with
          | none => s.refuse r .noSlot
          | some n =>
            (s.openSlot n branch group v).answer r (if v.clamped = [] then .done else .clamped)
              (.openStream n v.clamped)

/-- R6: OPEN is taken by the stream table. -/
def execOpen (s : State) : Host.Outcome State Fault Refusal :=
  match s.headRequest .openStream with
  | some r => .next (takeOpen r s)
  | none => .next s

/-! ## DATA -/

/-- R154: the offset a DATA record carries, 0 when it holds no whole offset. -/
def dataOffset (payload : List Byte) : Nat := if payload.length < 6 then 0 else field payload 0 6

/-- R11: the data bytes of a DATA record. -/
def dataBytes (payload : List Byte) : List Byte := payload.drop 6

/-- R11: the reason a DATA record is dropped, if it is (R2 gives NO-STREAM as BAD-STATE for DATA). -/
def State.dataReason (s : State) (r : Request) : Option Reason :=
  match s.streamCheck r with
  | some .range => some .range
  | some _ => some .badState
  | none =>
    let sl := s.slot r.stream
    if dataBytes r.payload = [] then some .range
    else if dataOffset r.payload ≠ sl.nextOffset then some .offset
    else if Config.offsetMax < dataOffset r.payload + (dataBytes r.payload).length then some .range
    else if Config.inputQueueMax ≤ sl.queue.length then some .queueFull
    else none

/-- R12: the next accepted offset a DATA REFUSED reports. -/
def State.reportedOffset (s : State) (n : Nat) : Nat := if slotInRange n then (s.slot n).nextOffset else 0

/-- R11, R14: a slot with a data entry at its tail. -/
def Slot.acceptData (sl : Slot) (offset : Nat) (bytes : List Byte) : Slot :=
  { sl with
    queue := sl.queue ++ [.data offset bytes]
    nextOffset := sl.nextOffset + bytes.length
    totals := { sl.totals with accepted := sl.totals.accepted + bytes.length } }

/-- R11, R12, R155: DATA is taken into the input queue, or dropped with DATA REFUSED; the outstanding count falls when
the record has been taken, or when its DATA REFUSED has entered the notice queue. While the stream table holds that
notice every request behind the record waits (`State.ownerFree`). -/
def takeData (r : Request) (s : State) : State :=
  match s.dataReason r with
  | none =>
    (s.setSlot r.stream
      ((s.slot r.stream).acceptData (dataOffset r.payload) (dataBytes r.payload))).popRequest.lessOutstanding
  | some reason =>
    let note : Notice :=
      .dataRefused r.stream reason (dataOffset r.payload) (dataBytes r.payload).length (s.reportedOffset r.stream)
    if s.hasRoom then (s.popRequest.enter note).lessOutstanding
    else { s.popRequest with dataHeld := some note }

/-- R11: DATA is taken by the stream table. -/
def execData (s : State) : Host.Outcome State Fault Refusal :=
  match s.headRequest .data with
  | some r => .next (takeData r s)
  | none => .next s

/-- R12, R162: a held DATA REFUSED enters the notice queue, in FAULT too. -/
def execHeldDataRefusedEntry (s : State) : Host.Outcome State Fault Refusal :=
  match s.dataHeld with
  | some note =>
    if !s.ctl.pinHeld && s.hasRoom then .next ({ s with dataHeld := none }.enter note).lessOutstanding
    else .next s
  | none => .next s

/-! ## SET WEIGHT, SET PACING, SNAPSHOT -/

/-- R19. -/
def takeSetWeight (r : Request) (s : State) : State :=
  match s.streamCheck r with
  | some reason => s.refuse r reason
  | none =>
    (s.setSlot r.stream { s.slot r.stream with pendingWeight := some (field r.payload 0 1) }).answer r .done .none

/-- R19: SET WEIGHT is taken by the stream table. -/
def execSetWeight (s : State) : Host.Outcome State Fault Refusal :=
  match s.headRequest .setWeight with
  | some r => .next (takeSetWeight r s)
  | none => .next s

/-- R20. -/
def takeSetPacing (r : Request) (s : State) : State :=
  match s.streamCheck r with
  | some reason => s.refuse r reason
  | none =>
    let v := field r.payload 0 2
    let p := clampTo 1 10000 v
    (s.setSlot r.stream { s.slot r.stream with pendingPacing := some p }).answer r (if p = v then .done else .clamped)
      (.setPacing (p != v))

/-- R20: SET PACING is taken by the stream table. -/
def execSetPacing (s : State) : Host.Outcome State Fault Refusal :=
  match s.headRequest .setPacing with
  | some r => .next (takeSetPacing r s)
  | none => .next s

/-- R21: the slot's figures. -/
def State.snapshotOf (s : State) (n : Nat) : SnapshotFigures :=
  let sl := s.slot n
  let sp := sl.current.getD (.fresh 0 0)
  { state := sl.state, branch := sl.branch.getD 0, group := sl.group.getD 0, nextOffset := sl.nextOffset,
    consumed := sl.consumed, queued := sl.queue.length, laneHolds := s.laneHolds n, activeWeight := sl.activeWeight,
    pendingWeight := sl.pendingWeight, activePacing := sl.activePacing.getD 0, pendingPacing := sl.pendingPacing,
    phase := sl.mark.phase, totals := sl.totals, spanNumber := sp.number, spanStart := sp.start,
    counters := sp.counters, outstanding := sp.outstanding }

/-- R21. -/
def takeSnapshot (r : Request) (s : State) : State :=
  match s.streamCheck r with
  | some reason => s.refuse r reason
  | none => s.answer r .done (.snapshot (s.snapshotOf r.stream))

/-- R21: SNAPSHOT is taken by the stream table. -/
def execSnapshot (s : State) : Host.Outcome State Fault Refusal :=
  match s.headRequest .snapshot with
  | some r => .next (takeSnapshot r s)
  | none => .next s

/-! ## CLOSE and ABORT -/

/-- R15: the checks of CLOSE after the addressing checks. -/
def closeReason (sl : Slot) : Option Reason :=
  if sl.mark.phase ≠ .none then some .markBusy
  else if Config.inputQueueMax ≤ sl.queue.length then some .queueFull
  else none

/-- R15. -/
def takeClose (r : Request) (s : State) : State :=
  match s.streamCheck r with
  | some reason => s.refuse r reason
  | none =>
    let sl := s.slot r.stream
    match closeReason sl with
    | some reason => s.refuse r reason
    | none =>
      (s.setSlot r.stream { sl with state := .draining, queue := sl.queue ++ [.endMark sl.nextOffset] }).answer r
        .done .none

/-- R15: CLOSE is taken by the stream table. -/
def execClose (s : State) : Host.Outcome State Fault Refusal :=
  match s.headRequest .close with
  | some r => .next (takeClose r s)
  | none => .next s

/-- R17: the entries ABORT leaves in the queue: the one a lane holds. -/
def State.keptEntries (s : State) (n : Nat) : List Entry :=
  if s.laneHolds n then (s.slot n).queue.take 1 else []

/-- R17: the effects at once on the slot. -/
def State.abortSlot (s : State) (n : Nat) : State :=
  s.setSlot n { s.slot n with state := .aborting, queue := s.keptEntries n }

/-- R17, R18, R111: what an ABORT brings about at once beyond the slot: the last batch if its conditions hold already,
or, when a FINAL batch had been made, the discards and perhaps STREAM CLOSED, before which the seals' closes go on that
waited behind its own (DESIGN CHOICE, log entry 48). -/
def State.afterAbort (s : State) (n : Nat) : State :=
  if (s.slot n).finalMade then (s.discardReports n).tryClose n
  else if s.lastBatchDue n then s.callBatch n
  else s

/-- R17. -/
def takeAbort (r : Request) (s : State) : State :=
  match s.streamCheck r with
  | some reason => s.refuse r reason
  | none =>
    let n := r.stream
    let discarded := (s.slot n).queue.length - (s.keptEntries n).length
    ((s.abortSlot n).answer r .done (.abort discarded)).afterAbort n

/-- R17: ABORT is taken by the stream table. The discards of R18 can let another seal's close go on, which reads
container records (R96, R122, R76). -/
def execAbort (s : State) (corrected : Nat := 0) : Host.Outcome State Fault Refusal :=
  match s.headRequest .abort with
  | some r => .next (takeAbort r (s.noteCorrected corrected))
  | none => .next s

end Sys2Proof.Machine
end

