-- ==== Sys2Proof/Machine/Dispatch.lean ====
section
/-! DEFINITION. One arm per command: what each does to everything but the queue of waiting commands. -/

namespace Sys2Proof.Machine

/-- The meaning of a command. -/
def exec (i : Instr) (s : State) : Host.Outcome State Fault Refusal :=
  match i with
  | .powerOnReset => Sys2Proof.Machine.execPowerOnReset s
  | .resetPinAssert => Sys2Proof.Machine.execResetPinAssert s
  | .resetPinRelease => Sys2Proof.Machine.execResetPinRelease s
  | .indexMemoryClearDone => Sys2Proof.Machine.execIndexMemoryClearDone s
  | .frameReceived bytes => Sys2Proof.Machine.execFrameReceived bytes s
  | .credit count => Sys2Proof.Machine.execCredit count s
  | .status => Sys2Proof.Machine.execStatus s
  | .reset => Sys2Proof.Machine.execReset s
  | .setSetting => Sys2Proof.Machine.execSetSetting s
  | .saveSettings => Sys2Proof.Machine.execSaveSettings s
  | .settingsProgramDone => Sys2Proof.Machine.execSettingsProgramDone s
  | .declare corrected => Sys2Proof.Machine.execDeclare corrected s
  | .seed corrected bad => Sys2Proof.Machine.execSeed corrected s bad
  | .seedOpDone corrected bad => Sys2Proof.Machine.execSeedOpDone corrected s bad
  | .beginService corrected bad => Sys2Proof.Machine.execBeginService corrected bad s
  | .openStream => Sys2Proof.Machine.execOpen s
  | .data => Sys2Proof.Machine.execData s
  | .mark => Sys2Proof.Machine.execMark s
  | .seal corrected => Sys2Proof.Machine.execSeal corrected s
  | .readReport => Sys2Proof.Machine.execReadReport s
  | .ackReport => Sys2Proof.Machine.execAckReport s
  | .retime => Sys2Proof.Machine.execRetime s
  | .setWeight => Sys2Proof.Machine.execSetWeight s
  | .setPacing => Sys2Proof.Machine.execSetPacing s
  | .snapshot => Sys2Proof.Machine.execSnapshot s
  | .close => Sys2Proof.Machine.execClose s
  | .abort corrected => Sys2Proof.Machine.execAbort s corrected
  | .durable corrected => Sys2Proof.Machine.execDurable corrected s
  | .lost corrected => Sys2Proof.Machine.execLost corrected s
  | .free corrected => Sys2Proof.Machine.execFree corrected s
  | .flush corrected => Sys2Proof.Machine.execFlush corrected s
  | .queryContainer corrected => Sys2Proof.Machine.execQueryContainer corrected s
  | .release => Sys2Proof.Machine.execRelease s
  | .clearHold => Sys2Proof.Machine.execClearHold s
  | .resetBaseline => Sys2Proof.Machine.execResetBaseline s
  | .queryBranch => Sys2Proof.Machine.execQueryBranch s
  | .transmitStart => Sys2Proof.Machine.execTransmitStart s
  | .frameTransmitted corrected => Sys2Proof.Machine.execFrameTransmitted s corrected
  | .tick corrected => Sys2Proof.Machine.execTick s corrected
  | .pacingMatch slot corrected => Sys2Proof.Machine.execPacingMatch slot s corrected
  | .markTimerLimit slot corrected => Sys2Proof.Machine.execMarkTimerLimit slot s corrected
  | .grant => Sys2Proof.Machine.execGrant s
  | .laneCut lane => Sys2Proof.Machine.execLaneCut lane s
  | .laneLookupJoin corrected => Sys2Proof.Machine.execLaneLookupJoin corrected s
  | .laneMarkMarker lane corrected => Sys2Proof.Machine.execLaneMarkMarker lane corrected s
  | .laneEndMarker lane => Sys2Proof.Machine.execLaneEndMarker lane s
  | .laneEntryFinish lane corrected => Sys2Proof.Machine.execLaneEntryFinish lane s corrected
  | .lookupPortGrant => Sys2Proof.Machine.execLookupPortGrant s
  | .lookupReadDone place corrected => Sys2Proof.Machine.execLookupReadDone place corrected s
  | .indexMemoryError => Sys2Proof.Machine.execIndexMemoryError s
  | .lookupApply corrected => Sys2Proof.Machine.execLookupApply corrected s
  | .releasePortGrant => Sys2Proof.Machine.execReleasePortGrant s
  | .releaseOpDone corrected => Sys2Proof.Machine.execReleaseOpDone corrected s
  | .sweepPortGrant => Sys2Proof.Machine.execSweepPortGrant s
  | .sweepOpDone corrected => Sys2Proof.Machine.execSweepOpDone corrected s
  | .heldReadyEntry => Sys2Proof.Machine.execHeldReadyEntry s
  | .heldDataRefusedEntry => Sys2Proof.Machine.execHeldDataRefusedEntry s
  | .heldStreamClosedEntry slot => Sys2Proof.Machine.execHeldStreamClosedEntry slot s
  | .heldContainerNoticeEntry corrected bad => Sys2Proof.Machine.execHeldContainerNoticeEntry corrected bad s
  | .heldReportEntry slot => Sys2Proof.Machine.execHeldReportEntry slot s
  | .heldAckReport => Sys2Proof.Machine.execHeldAckReport s
  | .heldSurgeEntry order => Sys2Proof.Machine.execHeldSurgeEntry order s
  | .heldReleaseCompleteEntry => Sys2Proof.Machine.execHeldReleaseCompleteEntry s
  | .heldSettingsSavedEntry => Sys2Proof.Machine.execHeldSettingsSavedEntry s
  | .pendingFaultEntry => Sys2Proof.Machine.execPendingFaultEntry s
  | .pendingLinkFaultEntry => Sys2Proof.Machine.execPendingLinkFaultEntry s

end Sys2Proof.Machine
end

