-- ==== Sys2Proof/Safety.lean ====
section
/-! DEFINITION. The terms the statements are written in: the state invariants, what it is for a request to be taken
from the head of the request queue and answered, the state after a reset, and the refusals of R2 and R4 written out. -/

namespace Sys2Proof.Machine

/-! ## Invariants -/

/-- Every sparse table is in its canonical form, and every entry of the spill table stands under its own key. -/
abbrev State.Canonical (s : State) : Prop :=
  tableWf Slot.free s.slots = true ∧ tableWf Lane.idle s.lanes = true ∧
    tableWf Bucket.empty s.index.buckets = true ∧ tableWf none s.index.spill = true ∧
    tableWf Container.free s.place.containers = true ∧ tableWf none s.place.openPlaces = true ∧
    tableWf Branch.fresh s.monitor.branches = true ∧
    ∀ p ∈ s.index.spill, ∀ x, p.2 = some x → p.1 = x.entry.fp.toNat * 2 ^ 32 + x.entry.length

/-- R169: every setting lies in the range its row gives. -/
structure Settings.InRange (w : Settings) : Prop where
  lmin : 256 ≤ w.lmin ∧ w.lmin ≤ 16384
  ltgt : 256 ≤ w.ltgt ∧ w.ltgt ≤ 65536
  lmax : 1024 ≤ w.lmax ∧ w.lmax ≤ 65536
  ks : 8 ≤ w.ks ∧ w.ks ≤ 20
  kl : 6 ≤ w.kl ∧ w.kl ≤ 20
  seed : w.seed ≤ 4294967295
  interval : 10 ≤ w.interval ∧ w.interval ≤ 3600
  lengthCheck : w.lengthCheck ≤ 1
  weight : w.weight ≤ 255
  pacing : 1 ≤ w.pacing ∧ w.pacing ≤ 10000
  threshold : 1 ≤ w.threshold ∧ w.threshold ≤ 64
  frameExp : 6 ≤ w.frameExp ∧ w.frameExp ≤ 8
  capacityMib : 4 ≤ w.capacityMib ∧ w.capacityMib ≤ 64
  margin : w.margin ≤ 1024
  minSampleMib : 1 ≤ w.minSampleMib ∧ w.minSampleMib ≤ 1024

/-- R13, R19, R39, R44, R46, R60, R76, R137, R152, R155 to R160, R169: the queues and counters lie within the ranges the
manual gives them. -/
structure State.Bounded (s : State) : Prop where
  credit : s.link.credit ≤ 255
  outstanding : s.link.outstanding ≤ 16
  /-- R155 to R157: every outstanding request waits, or its reply does, or its DATA REFUSED does. -/
  answered : s.link.requests.length + s.link.replies.length + (if s.dataHeld = none then 0 else 1) = s.link.outstanding
  notices : s.link.notices.length ≤ 128
  check : s.link.checkCount ≤ 4294967295
  length : s.link.lengthCount ≤ 4294967295
  overrun : s.link.overrunCount ≤ 4294967295
  served : 1 ≤ s.link.lastServed ∧ s.link.lastServed ≤ 64
  corrected : s.ctl.corrected ≤ 4294967295
  lookups : s.index.lookups.length ≤ 64
  releases : s.index.releases.length ≤ 256
  inputs : ∀ n, (s.slot n).queue.length ≤ 8
  start : 1 ≤ s.sched.startSlot ∧ s.sched.startSlot ≤ 64
  frameLen : s.sched.frameLen = 64 ∨ s.sched.frameLen = 128 ∨ s.sched.frameLen = 256
  grants : s.sched.grantCount ≤ s.sched.frameLen
  shares : ∀ n, (s.slot n).budget ≤ 255 ∧ (s.slot n).activeWeight ≤ 255 ∧
    ∀ w, (s.slot n).pendingWeight = some w → w ≤ 255
  settings : s.ctl.settings.InRange
  stored : (∀ w, s.ctl.storeCopy = some w → w.InRange) ∧ ∀ w, s.ctl.programming = some w → w.InRange

/-- R60, R62: a lookup that keeps its bucket in flight. -/
def QLookup.flies (q : QLookup) : Bool := q.state == .reading || q.state == .read

/-- R62: the bucket of the one other operation. -/
def OtherOp.bucket : OtherOp → Nat
  | .release b => b
  | .sweep b => b
  | .seed b => b

/-- R61, R62, R71, R168, R173, R174: the in-flight set holds the buckets of the READING and READ lookups and of the
operation in progress, each once and no other, so at most 17; every lookup beyond the window is QUEUED; and before
SERVICE there is no lookup and no operation but the one of the SEED being worked. -/
structure State.PortInOrder (s : State) : Prop where
  exact : s.index.inflight.Perm
    ((s.index.lookups.filter QLookup.flies).map (fun q => q.lk.bucket) ++ s.index.other.toList.map OtherOp.bucket)
  once : s.index.inflight.Nodup
  most : s.index.inflight.length ≤ 17
  window : ∀ i q, s.index.lookups[i]? = some q → 16 ≤ i → q.state = .queued
  starting : s.ctl.dev = .starting → s.index.lookups = [] ∧ s.index.other = none
  restore : s.ctl.dev = .restore → s.index.lookups = [] ∧
    ∀ op, s.index.other = some op → s.ctl.seedWork ≠ none ∧ ∃ b, op = .seed b
  service : s.ctl.dev = .service → ∀ b, s.index.other ≠ some (.seed b)
  alone : s.ctl.beginWork ≠ none → s.ctl.seedWork = none

/-- R28, R30, R31, R36: how many lookups the lane's work can still submit: the one it holds, one for every 256 bytes to
come (R22: no chunk a test ends is shorter), or one for a marker not yet reported consumed. -/
def Work.cutsLeft (w : Work) : Nat :=
  match w.entry with
  | .data _ _ =>
    if w.held = none then (w.rest.length + min w.ctx.len 255) / 256 else 1 + w.rest.length / 256
  | _ => if w.markerDone = true then 0 else 1

/-- R33: the works of the lanes that hold the stream. -/
def State.worksOf (s : State) (n : Nat) : List Work :=
  (s.lanes.filterMap (fun p => p.2.work)).filter (fun w => w.slot == n)

/-- How many lookups the lanes can still submit for the stream. -/
def State.cutsLeft (s : State) (n : Nat) : Nat := ((s.worksOf n).map Work.cutsLeft).sum

/-- R13, R30: the entries of the input queue that are not consumed yet. -/
def State.unconsumed (s : State) (n : Nat) : List Entry :=
  if (s.worksOf n).any (fun w => w.markerDone) then (s.slot n).queue.drop 1 else (s.slot n).queue

/-- R114, R115: a span the slot holds. -/
def Slot.Has (sl : Slot) (sp : Span) : Prop := sl.current = some sp ∨ sl.ended = some sp

/-- R22, R23, R169: the order of a profile's lengths. -/
def Profile.Ordered (p : Profile) : Prop := 256 ≤ p.lmin ∧ p.lmin ≤ p.ltgt ∧ p.ltgt ≤ p.lmax

/-- R101, R102, R116, R117: the verdict queue and the dependency sets stay within their places, with room for what the
lanes can still submit (R41); and what that rests on: a place is reserved, and a lookup outstanding, for exactly the
lookups in the queue; the two spans have different numbers, and a MARK marker not yet consumed has no span before it
(R115, R120); an END marker is the last entry (R15); a lane holds the head entry of a stream no other lane holds (R34,
R37); nothing more is submitted once the END marker has been consumed or the last batch made (R31, R110, R111). -/
structure State.PlacesInOrder (s : State) : Prop where
  verdicts : ∀ n, (s.slot n).filled.length + (s.slot n).reserved + s.cutsLeft n ≤ 64
  deps : ∀ n sp, (s.slot n).current = some sp → sp.deps.length + sp.outstanding + s.cutsLeft n ≤ 32
  endedDeps : ∀ n sp, (s.slot n).ended = some sp → sp.deps.length + sp.outstanding ≤ 32
  reserved : ∀ n, (s.slot n).reserved = (s.index.lookups.filter (fun q => q.lk.slot == n)).length
  outstanding : ∀ n sp, (s.slot n).Has sp →
    sp.outstanding = (s.index.lookups.filter (fun q => q.lk.slot == n && q.lk.span == sp.number)).length
  spans : ∀ q ∈ s.index.lookups, ∃ sp, (s.slot q.lk.slot).Has sp ∧ sp.number = q.lk.span
  numbers : ∀ n, (s.slot n).state ≠ .free → ∃ sp, (s.slot n).current = some sp ∧ sp.number ≤ 1 ∧
    ∀ e, (s.slot n).ended = some e → e.number = 1 - sp.number
  free : ∀ n, (s.slot n).state = .free → s.slot n = Slot.free
  markers : ∀ n, ((s.unconsumed n).filter Entry.isMark).length ≤ 1 ∧
    (((s.unconsumed n).filter Entry.isMark) ≠ [] → (s.slot n).ended = none)
  ends : ∀ n pre m post, (s.slot n).queue = pre ++ .endMark m :: post → post = [] ∧ (s.slot n).state ≠ .active
  data : ∀ n off bytes, .data off bytes ∈ (s.slot n).queue → bytes.length ≤ 4096
  payloads : ∀ r ∈ s.link.requests, r.payload.length ≤ 4102
  profiles : ∀ n p, (s.slot n).profile = some p → p.Ordered
  settings : s.ctl.settings.InRange ∧ (∀ w, s.ctl.storeCopy = some w → w.InRange) ∧
    ∀ w, s.ctl.programming = some w → w.InRange
  listed : tableWf Lane.idle s.lanes = true
  lanes : ∀ p ∈ s.lanes, ∀ w, p.2.work = some w →
    1 ≤ p.1 ∧ p.1 ≤ 4 ∧ (s.slot w.slot).queue.head? = some w.entry ∧ w.profile.Ordered ∧
      ∀ lk, w.held = some lk → p.2.state = .waiting ∧ w.markerDone = false ∧ lk.slot = w.slot ∧
        ∃ sp, (s.slot w.slot).current = some sp ∧ sp.number = lk.span
  single : ∀ n, (s.worksOf n).length ≤ 1
  quiet : ∀ n, (s.slot n).endConsumed = true ∨ (s.slot n).finalMade = true → s.cutsLeft n = 0 ∧
    ((s.slot n).state = .aborting ∨
      (s.slot n).state = .draining ∧ ((s.slot n).queue = [] ∨ (s.slot n).queue.length = 1 ∧ s.worksOf n ≠ []))
  last : ∀ n, (s.slot n).finalMade = true → (s.slot n).reserved = 0

/-- R12, R96, R156: while the placement unit holds a container request, the device is in SERVICE, that request stands at
the head of the request queue, and no DATA REFUSED is held, behind which it would not have been handed on. -/
def State.HeldRequestAtHead (s : State) : Prop :=
  s.place.held = some .request →
    s.ctl.dev = .service ∧ s.dataHeld = none ∧
      ∃ r rest, s.link.requests = r :: rest ∧ (r.kind = .durable ∨ r.kind = .lost ∨ r.kind = .flush)

/-! ## Requests and replies -/

/-- R156: `r` is at the head of the request queue, `rest` behind it, and its owner takes it now. -/
abbrev State.TakesNow (s : State) (kind : ReqKind) (r : Request) (rest : List Request) : Prop :=
  s.link.requests = r :: rest ∧ r.kind = kind ∧ s.ctl.pinHeld = false ∧ s.ownerFree kind = true

/-- R157: the record link once the request has been taken and its reply has joined the tail of the reply queue. -/
def State.replied (s : State) (r : Request) (rest : List Request) (status : Status) (fields : Fields) : Link :=
  { s.link with
    requests := rest
    replies := s.link.replies ++ [⟨r.kind.code, r.stream, r.tag, status, fields⟩] }

/-- R160: the record link once a notice has joined the tail of the notice queue. -/
def Link.noticed (k : Link) (n : Notice) : Link := { k with notices := k.notices ++ [n] }

/-- R4's table: the stream requests a slot state takes. -/
def takenKinds : SlotState → List ReqKind
  | .free => []
  | .active =>
    [.data, .mark, .seal, .readReport, .ackReport, .retime, .setWeight, .setPacing, .snapshot, .close, .abort]
  | .draining => [.seal, .readReport, .ackReport, .retime, .setWeight, .setPacing, .snapshot, .abort]
  | .aborting => [.readReport, .ackReport, .setPacing, .snapshot]

/-- R2: the stream request meets the four addressing checks. -/
abbrev State.Addressed (s : State) (r : Request) : Prop :=
  s.ctl.dev = .service ∧ 1 ≤ r.stream ∧ r.stream ≤ 64 ∧ r.kind ∈ takenKinds (s.slot r.stream).state

/-- R2: the reason of the first addressing check that fails. -/
inductive State.Misaddressed (s : State) (r : Request) : Reason → Prop
  | device : s.ctl.dev ≠ .service → Misaddressed s r .badState
  | range : s.ctl.dev = .service → r.stream = 0 ∨ 64 < r.stream → Misaddressed s r .range
  | noStream : s.ctl.dev = .service → 1 ≤ r.stream → r.stream ≤ 64 → (s.slot r.stream).state = .free →
      Misaddressed s r .noStream
  | slotState : s.ctl.dev = .service → 1 ≤ r.stream → r.stream ≤ 64 → (s.slot r.stream).state ≠ .free →
      r.kind ∉ takenKinds (s.slot r.stream).state → Misaddressed s r .badState

/-- The rows that take a stream request and carry no operand, with the request they take. -/
def plainStreamRows : List (Instr × ReqKind) :=
  [(.mark, .mark), (.readReport, .readReport), (.ackReport, .ackReport), (.retime, .retime), (.setWeight, .setWeight),
    (.setPacing, .setPacing), (.snapshot, .snapshot), (.close, .close)]

/-- R154, R164: a payload length that suits the request kind. -/
def SuitsKind (k : ReqKind) (p : List Byte) : Prop :=
  k = .data ∨ (k = .openStream ∧ 2 ≤ p.length) ∨
    (k = .seed ∧ 1 ≤ p.length ∧ p.length = 1 + 28 * field p 0 1) ∨
    (k = .release ∧ 2 ≤ p.length ∧ p.length = 2 + 20 * field p 1 1) ∨
    (k = .resetBaseline ∧ 2 ≤ p.length ∧ p.length = 2 + field p 0 2) ∨
    (k, p.length) ∈
      [(.status, 0), (.reset, 0), (.saveSettings, 0), (.beginService, 0), (.readReport, 0), (.ackReport, 0),
        (.snapshot, 0), (.close, 0), (.abort, 0), (.credit, 1), (.setWeight, 1), (.flush, 1), (.clearHold, 1),
        (.queryBranch, 1), (.retime, 2), (.setPacing, 2), (.durable, 2), (.lost, 2), (.free, 2), (.queryContainer, 2),
        (.mark, 4), (.setSetting, 5), (.seal, 10), (.declare, 12)]

/-! ## Byte layouts -/

/-- The bytes are fields of the widths given, one after another, each holding its value's low bytes, most significant
first. -/
def LaidOut : List Byte → List (Nat × Nat) → Prop
  | p, [] => p = []
  | p, (width, v) :: t => width ≤ p.length ∧ field p 0 width = v % 256 ^ width ∧ LaidOut (p.drop width) t

/-- R164: a flag or a yes-or-no figure. -/
def yesNo (b : Bool) : Nat := if b = true then 1 else 0

/-- R164: the eight counters of a span. -/
def Counters.layout (c : Counters) : List (Nat × Nat) :=
  [(6, c.bytes), (6, c.chunks), (6, c.newChunks), (6, c.newBytes), (6, c.dupChunks), (6, c.dupBytes), (6, c.passChunks),
    (6, c.passBytes)]

/-- R164: a report. -/
def Report.layout (r : Report) : List (Nat × Nat) :=
  [(1, r.stream), (1, r.branch), (4, r.id), (1, r.outcome.code), (1, r.spanNumber), (6, r.start),
    (6, r.endOff.getD 0), (6, r.expected.getD 0), (1, yesNo r.endOff.isSome + 2 * yesNo r.expected.isSome),
    (1, r.lengthMatch.code)] ++ r.counters.layout ++
  [(1, yesNo r.tainted), (2, r.lostDeps), (1, r.outstanding), (1, r.depsLeft), (4, r.elapsed)]

/-- R164: a VERDICT BATCH. -/
def Batch.layout (b : Batch) : List (Nat × Nat) :=
  [(6, b.consumed), (1, yesNo b.final + 2 * yesNo b.aborted), (1, b.verdicts.length)] ++
    b.verdicts.flatMap (fun v =>
      [(6, v.start), (4, v.length), (1, v.kind.code), (1, v.cut.code), (16, v.fp.toNat), (2, v.container.getD 0),
        (4, v.offset.getD 0), (1, (v.cstate.map ContState.code).getD 0)])

/-- R164's table of notice payloads. -/
def Notice.layout : Notice → List (Nat × Nat)
  | .ready cause valid store => [(1, cause.code), (1, yesNo valid), (1, store.code)]
  | .fault before => [(1, 1), (1, before.code)]
  | .linkFault cause counter kind tag => [(1, cause.code), (4, counter), (1, kind), (2, tag)]
  | .containerFull c g fill entries cause => [(2, c), (1, g), (4, fill), (4, entries), (1, cause.code)]
  | .containerReclaimable c g fill => [(2, c), (1, g), (4, fill)]
  | .containerFreed c g => [(2, c), (1, g)]
  | .starved g n length full reclaimable lost =>
    [(1, g), (1, n), (4, length), (4, full), (4, reclaimable), (4, lost)]
  | .reportReady n b id outcome => [(1, n), (1, b), (4, id), (1, outcome.code)]
  | .streamClosed n b reason next consumed => [(1, n), (1, b), (1, reason.code), (6, next), (6, consumed)]
  | .dataRefused n reason offset length next => [(1, n), (1, reason.code), (6, offset), (2, length), (6, next)]
  | .surge b sample baseline margin => [(1, b), (2, sample), (2, baseline), (2, margin)]
  | .releaseComplete tag b found freed missed => [(2, tag), (1, b), (1, found), (1, freed), (1, missed)]
  | .settingsSaved w =>
    [(4, w.lmin), (4, w.ltgt), (4, w.lmax), (4, w.ks), (4, w.kl), (4, w.seed), (4, w.interval), (4, w.lengthCheck),
      (4, w.weight), (4, w.pacing), (4, w.threshold), (4, w.frameExp), (4, w.capacityMib), (4, w.margin),
      (4, w.minSampleMib)]

/-- The three figures of a notice that its frame's header and the transmit arbiter take. -/
structure NoticeHeader where
  code : Nat
  cls : Nat
  stream : Nat

/-- R153, R159, R164: the kind code of each notice, its class, and the stream field of its header, which is 0 for a
notice that names no stream. -/
def Notice.header : Notice → NoticeHeader
  | .ready _ _ _ => ⟨64, 2, 0⟩
  | .fault _ => ⟨65, 2, 0⟩
  | .linkFault _ _ _ _ => ⟨66, 2, 0⟩
  | .containerFull _ _ _ _ _ => ⟨67, 3, 0⟩
  | .containerReclaimable _ _ _ => ⟨68, 3, 0⟩
  | .containerFreed _ _ => ⟨69, 3, 0⟩
  | .starved _ n _ _ _ _ => ⟨70, 3, n⟩
  | .reportReady n _ _ _ => ⟨71, 4, n⟩
  | .streamClosed n _ _ _ _ => ⟨72, 4, n⟩
  | .dataRefused n _ _ _ _ => ⟨73, 4, n⟩
  | .surge _ _ _ _ => ⟨74, 5, 0⟩
  | .releaseComplete _ _ _ _ _ => ⟨75, 5, 0⟩
  | .settingsSaved _ => ⟨76, 5, 0⟩

/-- R164's table of reply fields. -/
def Fields.layout : Fields → List (Nat × Nat)
  | .none => []
  | .status f =>
    [(1, f.dev.code), (1, f.cause.code), (1, yesNo f.settingsValid), (1, f.store.code), (4, f.freeList), (4, f.spill),
      (4, f.entries), (4, f.check), (4, f.length), (4, f.overrun), (4, f.corrected), (1, f.lanes), (1, f.streams),
      (1, yesNo f.fault)]
  | .setSetting number value => [(1, number), (4, value)]
  | .seed taken field container duplicate room => [(1, taken), (1, field), (1, container), (1, duplicate), (1, room)]
  | .beginService length made => [(4, length), (4, made)]
  | .openStream slot clamped => [(1, slot), (1, clamped.length)] ++ clamped.map (fun c => (1, c.code))
  | .mark offset => [(6, offset)]
  | .readReport r age waiting => r.layout ++ [(4, age), (1, yesNo waiting)]
  | .ackReport id moved => [(4, id), (1, yesNo moved)]
  | .retime clamped => [(1, if clamped = true then 7 else 0)]
  | .setPacing clamped => [(1, if clamped = true then 10 else 0)]
  | .snapshot f =>
    [(1, f.state.code), (1, f.branch), (1, f.group), (6, f.nextOffset), (6, f.consumed), (1, f.queued),
      (1, yesNo f.laneHolds), (1, f.activeWeight), (1, f.pendingWeight.getD 0), (2, f.activePacing),
      (2, f.pendingPacing.getD 0), (1, yesNo f.pendingWeight.isSome + 2 * yesNo f.pendingPacing.isSome),
      (1, f.phase.code), (6, f.totals.accepted), (6, f.totals.consumed), (6, f.totals.chunks), (6, f.totals.newChunks),
      (6, f.totals.newBytes), (6, f.totals.dupChunks), (6, f.totals.dupBytes), (6, f.totals.passChunks),
      (6, f.totals.passBytes), (1, f.spanNumber), (6, f.spanStart)] ++ f.counters.layout ++ [(1, f.outstanding)]
  | .abort n => [(1, n)]
  | .durable st spans => [(1, st.code), (1, spans)]
  | .lost st spans => [(1, st.code), (1, spans)]
  | .free length => [(4, length)]
  | .flush c fill entries => [(2, c), (4, fill), (4, entries)]
  | .queryContainer f =>
    [(2, f.container), (1, f.state.code), (1, f.group.getD 0), (4, f.capacity), (4, f.fill), (4, f.entries),
      (6, f.live), (1, yesNo f.isOpen), (4, f.position), (1, f.spans)]
  | .release n => [(1, n)]
  | .clearHold before => [(1, yesNo before)]
  | .resetBaseline n => [(2, n)]
  | .queryBranch n b =>
    [(1, n), (1, b.bound.getD 0), (1, b.phase.code), (1, b.cold), (2, b.baseline), (2, b.margin.getD 0),
      (1, yesNo b.margin.isSome), (1, yesNo b.hold), (8, b.bytesIn), (8, b.newBytes), (4, b.cleanSamples),
      (4, b.surges), (4, b.relFound), (4, b.relMissed)]

/-! ## Settings -/

/-- R169: the number and the range of each setting. -/
def settingTable : List (Nat × Nat × Nat) :=
  [(1, 256, 16384), (2, 256, 65536), (3, 1024, 65536), (4, 8, 20), (5, 6, 20), (6, 0, 4294967295), (7, 10, 3600),
    (8, 0, 1), (9, 0, 255), (10, 1, 10000), (11, 1, 64), (12, 6, 8), (13, 4, 64), (14, 0, 1024), (15, 1, 1024)]

/-- R169: the settings in the order of their numbers. -/
def Settings.values (w : Settings) : List Nat :=
  [w.lmin, w.ltgt, w.lmax, w.ks, w.kl, w.seed, w.interval, w.lengthCheck, w.weight, w.pacing, w.threshold, w.frameExp,
    w.capacityMib, w.margin, w.minSampleMib]

/-- R169: the settings `w` once the one of that number holds `v`. -/
def Settings.With (w : Settings) (number v : Nat) (w' : Settings) : Prop :=
  w'.values = w.values.set (number - 1) v

/-! ## The entry into FAULT -/

/-- R176, R162, R173, R174: the state once an uncorrectable error has put the device in FAULT while the request `r` is
held or worked at the head of the request queue: it is answered REFUSED BAD-STATE, and FAULT enters or is kept
pending. -/
def State.faulted (s : State) (r : Request) (rest : List Request) : State :=
  { s with
    ctl := { s.ctl with
      dev := .fault, faultCause := true, seedWork := none, beginWork := none
      faultPending := if s.link.notices.length < 128 then s.ctl.faultPending else some s.ctl.dev }
    link := { s.replied r rest (.refused .badState) .none with
      notices := if s.link.notices.length < 128 then s.link.notices ++ [.fault s.ctl.dev] else s.link.notices }
    marks := { s.marks with ackHeld := false }
    place := { s.place with held := if s.place.held = some .request then none else s.place.held } }

/-! ## SEED and BEGIN SERVICE -/

/-- R173: the entry's container is not DURABLE. -/
abbrev State.BadContainer (s : State) (e : SeedEntry) : Prop := (s.container e.container).state ≠ .durable

/-- R173: a field of the entry is out of range. -/
abbrev State.BadField (s : State) (e : SeedEntry) : Prop :=
  e.length = 0 ∨ 65536 < e.length ∨ e.refs = 0 ∨ (s.container e.container).fill < e.offset + e.length

/-- R173, R176: how a SEED goes on from `s` with the counts of `w`, the entries `es` left to deal with: the bad ones
that come first are counted, CONTAINER before FIELD, and then the reply is made, or the first good entry claims the
port for its bucket, or, where the read for the entry at place `bad` meets an uncorrectable error, the device enters
FAULT. -/
def State.SeedGoesOn (s : State) (r : Request) (rest : List Request) (bad : Option Nat) (w : SeedWork)
    (es : List SeedEntry) (o : Host.Outcome State Fault Refusal) : Prop :=
  ∀ pre post, es = pre ++ post → (∀ e ∈ pre, s.BadContainer e ∨ s.BadField e) →
    let nc := (pre.filter (fun e => decide (s.BadContainer e))).length
    let nf := pre.length - nc
    (post = [] → (∀ b, bad = some b → pre.length ≤ b) →
      o = .next { s with
        ctl := { s.ctl with seedWork := none }
        link := s.replied r rest .done (.seed w.taken (w.field + nf) (w.container + nc) w.duplicate w.room) }) ∧
    ∀ e later, post = e :: later →
      (¬ (s.BadContainer e ∨ s.BadField e) → (∀ b, bad = some b → pre.length < b) →
        o = .next { s with
          ctl := { s.ctl with
            seedWork := some ⟨e :: later, w.taken, w.field + nf, w.container + nc, w.duplicate, w.room⟩ }
          index := { s.index with
            other := some (.seed (bucketOf e.fp)), inflight := s.index.inflight ++ [bucketOf e.fp] } }) ∧
      (bad = some pre.length → o = .next (s.faulted r rest))

/-- R174 step 1: the DURABLE containers without entries, in ascending order, up to the one whose record's read meets an
uncorrectable error. -/
def State.reclaimable (s : State) (bad : Option Nat) : List (Nat × Container) :=
  s.place.containers.filter (fun p =>
    decide (p.2.state = .durable ∧ p.2.entries = 0) && bad.all (fun b => decide (p.1 < b)))

/-- R174, R91: the containers listed made RECLAIMABLE, each with its notice. -/
def State.reclaimed (s : State) (ps : List (Nat × Container)) : State :=
  { s with
    place := { s.place with
      containers := s.place.containers.map (fun p => if p ∈ ps then (p.1, { p.2 with state := .reclaimable }) else p)
      nReclaimable := s.place.nReclaimable + ps.length }
    link := { s.link with
      notices := s.link.notices ++ ps.map (fun p => .containerReclaimable p.1 (p.2.group.getD 0) p.2.fill) } }

/-- R174, R176: how BEGIN SERVICE goes on from `s` with `made` containers made RECLAIMABLE so far: as many more as
there is room for, and then, when none is left, the free list, SERVICE and the reply, or FAULT at the record `bad`. -/
def State.BeginGoesOn (s : State) (r : Request) (rest : List Request) (made : Nat) (bad : Option Nat)
    (o : Host.Outcome State Fault Refusal) : Prop :=
  let ps := s.reclaimable bad
  let room := 128 - s.link.notices.length
  let frees := (List.range 65536).filter (fun c => (s.container c).state == .free)
  (room < ps.length →
    o = .next { s.reclaimed (ps.take room) with ctl := { s.ctl with beginWork := some (made + room) } }) ∧
  (ps.length ≤ room → bad = none →
    o = .next { s.reclaimed ps with
      ctl := { s.ctl with dev := .service, beginWork := none }
      place := { (s.reclaimed ps).place with freeList := frees }
      link := (s.reclaimed ps).replied r rest .done (.beginService frees.length (made + ps.length)) }) ∧
  (ps.length ≤ room → bad ≠ none → o = .next ((s.reclaimed ps).faulted r rest))

/-! ## Reports and samples -/

/-- R142 to R146: the branch monitor takes a CLEAN report of `bytes` span bytes, `fresh` of them new or passed: the two
byte totals rise; below the minimum sample size that is all; otherwise the sample is applied by the branch's phase, and
a surge without room for its notice is held (what rises at once then is log entry 18; an absent margin reads as 0, log
entry 35). -/
def State.Sampled (s : State) (branch bytes fresh : Nat) (t : State) : Prop :=
  let sample := fresh * 1024 / bytes
  let b := s.branch branch
  let m := b.margin.getD 0
  let fed := { b with
    bytesIn := min (2 ^ 64 - 1) (b.bytesIn + bytes), newBytes := min (2 ^ 64 - 1) (b.newBytes + fresh) }
  let sampled := { fed with cleanSamples := min 4294967295 (b.cleanSamples + 1) }
  let becomes := fun b' : Branch => t = { s with monitor := (s.setBranch branch b').monitor }
  (bytes < s.ctl.settings.minSampleMib * 1048576 → becomes fed) ∧
  (s.ctl.settings.minSampleMib * 1048576 ≤ bytes →
    (b.phase = .cold → b.cold ≠ 3 →
      becomes { sampled with baseline := (b.baseline * b.cold + sample) / (b.cold + 1), cold := b.cold + 1 }) ∧
    (b.phase = .cold → b.cold = 3 →
      becomes { sampled with baseline := (b.baseline * 3 + sample) / 4, cold := 0, phase := .hot }) ∧
    (b.phase = .hot → sample ≤ b.baseline + m → becomes { sampled with baseline := (7 * b.baseline + sample) / 8 }) ∧
    (b.phase = .hot → b.baseline + m < sample → s.link.notices.length < 128 →
      t = { s with
        monitor := (s.setBranch branch
          { sampled with hold := true, surges := min 4294967295 (b.surges + 1) }).monitor
        link := s.link.noticed (.surge branch sample b.baseline m) }) ∧
    (b.phase = .hot → b.baseline + m < sample → 128 ≤ s.link.notices.length →
      t = { s with
        monitor := { (s.setBranch branch sampled).monitor with
          surgeHeld := some ⟨branch, sample, b.baseline, m⟩ } }))

/-- R142, R146: the branch monitor has gone on from `s` with the hand-ons listed, none waiting with the mark unit by
then: it takes them one at a time, until one makes a SURGE that has no room; those behind it wait on in that order. -/
inductive State.HandOnsTaken : State → List HandOn → State → Prop
  | empty (s : State) : HandOnsTaken s [] s
  | takes (s u t : State) (h : HandOn) (later : List HandOn) : s.monitor.surgeHeld = none →
      s.Sampled h.branch h.bytes h.fresh u → HandOnsTaken u later t → HandOnsTaken s (h :: later) t
  | waits (s : State) (h : HandOn) (later : List HandOn) : s.monitor.surgeHeld ≠ none →
      HandOnsTaken s (h :: later) { s with marks := { s.marks with handOns := h :: later } }

/-- R127, R142: a report has entered its report slot: a CLEAN one is handed to the branch monitor, or waits for it while
it holds a SURGE; any other is handed to no one. -/
def State.HandedOn (s : State) (rep : Report) (t : State) : Prop :=
  let bytes := rep.counters.bytes
  let fresh := rep.counters.newBytes + rep.counters.passBytes
  (rep.outcome ≠ .clean → t = s) ∧
  (rep.outcome = .clean → s.monitor.surgeHeld = none → s.marks.handOns = [] → s.Sampled rep.branch bytes fresh t) ∧
  (rep.outcome = .clean → s.monitor.surgeHeld ≠ none ∨ s.marks.handOns ≠ [] →
    t = { s with marks := { s.marks with
      handOns := s.marks.handOns ++ [⟨rep.stream, rep.branch, bytes, fresh⟩] } })

/-- R127, R128: a report just made of stream `n` has been placed: in the waiting place while the report slot is
occupied, held while the notice queue is full, and otherwise in the report slot with age 0 and its REPORT READY. -/
def State.Placed (s : State) (n : Nat) (rep : Report) (t : State) : Prop :=
  let sl := s.slot n
  (sl.reportSlot ≠ none → t = { s with slots := (s.setSlot n { sl with waiting := some rep }).slots }) ∧
  (sl.reportSlot = none → 128 ≤ s.link.notices.length →
    t = { s with slots := (s.setSlot n { sl with heldReport := some rep }).slots }) ∧
  (sl.reportSlot = none → s.link.notices.length < 128 →
    State.HandedOn
      { s with
        slots := (s.setSlot n { sl with reportSlot := some (rep, 0) }).slots
        link := s.link.noticed (.reportReady rep.stream rep.branch rep.id rep.outcome) } rep t)

/-! ## Seals -/

/-- R84, R86, R87: the state once the OPEN container has been closed to FULL, with its notice. -/
def State.fullMade (s : State) (c : Nat) (cause : FullCause) : State :=
  let v := s.container c
  let g := v.group.getD 0
  { s with
    place := { ((s.setContainer c { v with state := .full }).setOpenPlace g none).place with
      nFull := s.place.nFull + 1 }
    link := s.link.noticed (.containerFull c g v.fill v.entries cause) }

/-- R87, R122, R96: the close of the containers listed for the seal of stream `n`: the OPEN ones are closed to FULL one
after another (in the order in which they joined the set: log entry 21) and the others passed over, until one needs
room that is not there, which the placement unit then holds, or waits while the placement unit holds another event. -/
inductive State.SealCloses (n : Nat) : State → List Nat → State → Prop
  | done (s : State) : SealCloses n s [] s
  | passes (s t : State) (c : Nat) (later : List Nat) : (s.container c).state ≠ .open_ → SealCloses n s later t →
      SealCloses n s (c :: later) t
  | closes (s t : State) (c : Nat) (later : List Nat) : (s.container c).state = .open_ → s.place.held = none →
      s.link.notices.length < 128 → SealCloses n (s.fullMade c .seal) later t → SealCloses n s (c :: later) t
  | holds (s : State) (c : Nat) (later : List Nat) : (s.container c).state = .open_ → s.place.held = none →
      128 ≤ s.link.notices.length →
      SealCloses n s (c :: later) { s with place := { s.place with held := some (.seal n) } }
  | waits (s : State) (c : Nat) (later : List Nat) : (s.container c).state = .open_ → s.place.held ≠ none →
      SealCloses n s (c :: later) s

/-- R122: the mark is SEALING, its cut is made, and its span `sp` has no lookup outstanding. -/
def Slot.SealDue (sl : Slot) (sp : Span) : Prop :=
  sl.mark.phase = .sealing ∧ sl.mark.cut = true ∧ sl.ended = some sp ∧ sp.outstanding = 0

/-- R124: the report of the completed mark of stream `n`, whose span is `sp`. -/
def Slot.completion (sl : Slot) (n : Nat) (sp : Span) : Report :=
  let found : LengthMatch :=
    if sp.endOff = none ∨ sl.mark.sealLen = none then .unknown
    else if sl.mark.sealLen.getD 0 = sp.endOff.getD 0 - sp.start then .matched else .different
  { stream := n, branch := sl.branch.getD 0, id := sl.mark.id.getD 0
    outcome :=
      if sp.tainted = true then .tainted
      else if sl.lengthCheck = some true ∧ found = .different then .mismatch else .clean
    spanNumber := sp.number, start := sp.start, endOff := sp.endOff, expected := sl.mark.sealLen
    lengthMatch := found, counters := sp.counters, tainted := sp.tainted, lostDeps := sp.lostDeps
    outstanding := sp.outstanding, depsLeft := sp.deps.length, elapsed := sl.mark.timer }

/-- R122, R123: what an event that may settle the mark of stream `n` brings about: with the set not empty its OPEN
containers are closed; with the set empty the mark completes: the span is removed, the record returns to NONE, and the
report is placed; and nothing where the conditions do not hold. -/
def State.Settled (s : State) (n : Nat) (t : State) : Prop :=
  let sl := s.slot n
  (∀ sp, sl.SealDue sp → sp.deps ≠ [] → State.SealCloses n s sp.deps t) ∧
  (∀ sp, sl.SealDue sp → sp.deps = [] →
    State.Placed
      { s with slots := (s.setSlot n
        { sl with ended := none, mark := ⟨.none, none, none, false, none, 0, 0⟩ }).slots }
      n (sl.completion n sp) t) ∧
  ((∀ sp, ¬ sl.SealDue sp) → t = s)

/-- R90, R93, R96: the marks of the streams listed settle one after another (the order of the slots is log entry
21). -/
inductive State.MarksSettle : State → List Nat → State → Prop
  | done (s : State) : MarksSettle s [] s
  | settles (s u t : State) (n : Nat) (later : List Nat) : s.Settled n u → MarksSettle u later t →
      MarksSettle s (n :: later) t

/-- R96: room has freed and the event the placement unit held has gone on, which leaves `u`: the seals' closes that
waited behind it go on too. -/
def State.ThenSettles (u t : State) : Prop := State.MarksSettle u (u.slots.map Prod.fst) t

/-- R126, R18: the close of the seal of stream `n`, if it waits for room, is abandoned, and those behind it go on. -/
def State.SealAbandoned (s : State) (n : Nat) (t : State) : Prop :=
  (s.place.held = some (.seal n) → State.ThenSettles { s with place := { s.place with held := none } } t) ∧
  (s.place.held ≠ some (.seal n) → t = s)

/-! ## The end of a stream -/

/-- R18, R115, R126: the slot once its mark, if one is open, has been dropped: its span is retired. -/
def Slot.markDropped (sl : Slot) : Slot :=
  if sl.mark.phase = .none then sl
  else if sl.mark.cut = true then
    { sl with
      mark := ⟨.none, none, none, false, none, 0, 0⟩
      ended := sl.ended.bind (fun sp =>
        if sp.outstanding = 0 then none else some { sp with deps := [], retired := true }) }
  else
    { sl with
      mark := ⟨.none, none, none, false, none, 0, 0⟩
      current := sl.current.map (fun sp => { sp with deps := [], retired := true }) }

/-- R18: the slot once its reports have been discarded. -/
def Slot.reportsDiscarded (sl : Slot) : Slot :=
  { sl.markDropped with reportSlot := none, waiting := none, heldReport := none }

/-- R105, R107, R108: the slot once a batch with those flags has been made of its filled verdicts. -/
def Slot.batchMade (sl : Slot) (final aborted : Bool) : Slot :=
  { sl with
    filled := [], due := false
    madeBatch := some ⟨sl.consumed, final, aborted, sl.filled⟩
    finalMade := sl.finalMade || final
    pacingCounter := 0
    activePacing := sl.pendingPacing.elim sl.activePacing (fun p => some p)
    pendingPacing := none }

/-- R110, R111: the conditions of the last batch hold, and it has not been made. -/
def State.LastBatchDue (s : State) (n : Nat) : Prop :=
  (s.slot n).finalMade = false ∧ (s.slot n).reserved = 0 ∧
    ((s.slot n).state = .draining ∧ (s.slot n).endConsumed = true ∨
      (s.slot n).state = .aborting ∧ ∀ p ∈ s.lanes, ∀ w, p.2.work = some w → w.slot ≠ n)

/-- R18, R126, R142: what the discard of a stream's reports leaves beside its slot: no hand-on of it waits (log entry
39), and its seal's close is not held any longer. -/
def State.discarded (s : State) (n : Nat) : State :=
  { s with
    marks := { s.marks with handOns := s.marks.handOns.filter (fun h => h.stream != n) }
    place := { s.place with held := if s.place.held = some (.seal n) then none else s.place.held } }

/-- No other stream's seal waits for the placement unit to let go of this one's. -/
def State.NoSealBehind (s : State) (n : Nat) : Prop :=
  s.place.held = some (.seal n) → ∀ m, m ≠ n → (s.slot m).mark.phase ≠ .sealing

/-- R18: the reports of stream `n` have been discarded, its mark dropped and its seal's close abandoned (that the
hand-ons of the stream that wait go as well is log entry 39). -/
def State.ReportsGone (s : State) (n : Nat) (t : State) : Prop :=
  State.SealAbandoned
    { s with
      marks := { s.marks with handOns := s.marks.handOns.filter (fun h => h.stream != n) }
      slots := (s.setSlot n (s.slot n).reportsDiscarded).slots } n t

/-- R107, R110, R111: a batch of stream `n` has been called for: none is made after the last; with the made-batch place
occupied one becomes due; otherwise it is made of the filled verdicts, as the FINAL batch, or as the FINAL and ABORTED
batch with the discards of R18, where the conditions of the last batch hold. -/
def State.CallsBatch (s : State) (n : Nat) (t : State) : Prop :=
  let sl := s.slot n
  let made := fun final aborted : Bool => { s with slots := (s.setSlot n (sl.batchMade final aborted)).slots }
  (sl.finalMade = true → t = s) ∧
  (sl.finalMade = false → sl.madeBatch ≠ none → t = { s with slots := (s.setSlot n { sl with due := true }).slots }) ∧
  (sl.finalMade = false → sl.madeBatch = none →
    (¬ s.LastBatchDue n → t = made false false) ∧
    (s.LastBatchDue n → sl.state = .draining → t = made true false) ∧
    (s.LastBatchDue n → sl.state = .aborting → State.ReportsGone (made true true) n t))

/-- R110, R111: an event after which the last batch of stream `n` is called for, if its conditions hold. -/
def State.LastCalled (s : State) (n : Nat) (t : State) : Prop :=
  (s.LastBatchDue n → s.CallsBatch n t) ∧ (¬ s.LastBatchDue n → t = s)

/-- R106, R110, R111: a fill of stream `n`, after which a batch is called for where the filled verdicts number the batch
threshold or the conditions of the last batch hold. -/
def State.FillCalls (s : State) (n : Nat) (t : State) : Prop :=
  let calls := s.LastBatchDue n ∨ ∃ th, (s.slot n).threshold = some th ∧ th ≤ (s.slot n).filled.length
  (calls → s.CallsBatch n t) ∧ (¬ calls → t = s)

/-- R16, R18, R10: the state once STREAM CLOSED has entered for the slot `v` of stream `n` and branch `b`. -/
def State.streamClosed (s : State) (n b : Nat) (v : Slot) : State :=
  { s with
    slots := (s.setSlot n Slot.free).slots
    monitor := (s.setBranch b { s.branch b with bound := none }).monitor
    link := s.link.noticed
      (.streamClosed n b (if v.state = .aborting then .aborted else .closed) v.nextOffset v.consumed) }

/-! ## Entries -/

/-- R58: the state once the count of the entry `e` is `refs`: of the spill table's entry under its key, or of the entry
of its key in bucket `b`. -/
def State.recounted (s : State) (e : IndexEntry) (inSpill : Bool) (b refs : Nat) : State :=
  if inSpill = true then s.setSpill e.fp e.length (some ⟨{ e with refs := refs }, b⟩)
  else s.setBucket b { s.bucket b with
    entries := (s.bucket b).entries.map (fun x =>
      if x.fp = e.fp ∧ x.length = e.length then { x with refs := refs } else x) }

/-- R57, R59: the state once the entry `e` has left the spill table, whose bucket `b` counts one spill entry fewer, or
bucket `b`, whose other entries keep their order; the number of entries falls by 1, and so does that of spill entries
for one of the spill table. -/
def State.entryGone (s : State) (e : IndexEntry) (inSpill : Bool) (b : Nat) : State :=
  { s with index := { s.index with
      buckets := (s.setBucket b
        (if inSpill = true then { s.bucket b with spill := (s.bucket b).spill - 1 }
         else { s.bucket b with entries := (s.bucket b).entries.erase e })).index.buckets
      spill := if inSpill = true then (s.setSpill e.fp e.length none).index.spill else s.index.spill
      spillCount := if inSpill = true then s.index.spillCount - 1 else s.index.spillCount
      entryCount := s.index.entryCount - 1 } }

/-! ## Applies -/

/-- R116: the counters of a span once a verdict of that kind on `len` bytes counts in them. -/
def Counters.raised (c : Counters) (k : VerdictKind) (len : Nat) : Counters :=
  { bytes := c.bytes + len
    chunks := c.chunks + 1
    newChunks := c.newChunks + if k = .new then 1 else 0
    newBytes := c.newBytes + if k = .new then len else 0
    dupChunks := c.dupChunks + if k = .dup then 1 else 0
    dupBytes := c.dupBytes + if k = .dup then len else 0
    passChunks := c.passChunks + if k = .pass then 1 else 0
    passBytes := c.passBytes + if k = .pass then len else 0 }

/-- R14: the stream totals once a verdict of that kind on `len` bytes counts in them. -/
def Totals.raised (t : Totals) (k : VerdictKind) (len : Nat) : Totals :=
  { t with
    chunks := t.chunks + 1
    newChunks := t.newChunks + if k = .new then 1 else 0
    newBytes := t.newBytes + if k = .new then len else 0
    dupChunks := t.dupChunks + if k = .dup then 1 else 0
    dupBytes := t.dupBytes + if k = .dup then len else 0
    passChunks := t.passChunks + if k = .pass then 1 else 0
    passBytes := t.passBytes + if k = .pass then len else 0 }

/-- R70, R116, R117: the span once a lookup of it has been decided `v`: a live one has one outstanding lookup fewer, the
verdict in its counters, and the container given in its set; a retired one loses only the outstanding lookup. -/
def Span.decided (sp : Span) (v : Verdict) (dep : Option Nat) : Span :=
  if sp.retired = true then { sp with outstanding := sp.outstanding - 1 }
  else
    { sp with
      outstanding := sp.outstanding - 1
      counters := sp.counters.raised v.kind v.length
      deps := sp.deps ++ dep.toList.filter (fun c => decide (c ∉ sp.deps)) }

/-- R70, R103, R14, R115: the slot once a lookup of its span of that number has been decided `v`: the oldest reserved
place is filled, the span and the totals are updated, and a retired ended span without outstanding lookups is
removed. -/
def Slot.decided (sl : Slot) (number : Nat) (v : Verdict) (dep : Option Nat) : Slot :=
  let ofSpan := fun sp : Span => if sp.number = number then sp.decided v dep else sp
  { sl with
    filled := sl.filled ++ [v]
    reserved := sl.reserved - 1
    totals := sl.totals.raised v.kind v.length
    current := sl.current.map ofSpan
    ended := (sl.ended.map ofSpan).filter (fun sp => decide (sp.retired = false ∨ sp.outstanding ≠ 0)) }

/-- R70, R106, R110, R122, R123: what follows the fill by an apply of a lookup of stream `n`, from `s`: the batch it
calls for, and then the close or the completion of its mark (in that order: log entry 40). -/
def State.AppliedTo (s : State) (n : Nat) (t : State) : Prop := ∃ u, s.FillCalls n u ∧ u.Settled n t

/-! ## Releases -/

/-- R137: the tally of the RELEASE whose item is at the head: the one that stands, or a new one at zero counts. -/
def State.headTally (s : State) (it : ReleaseItem) : Tally := s.index.tally.getD ⟨it.tag, it.branch, 0, 0, 0⟩

/-- R139: the state once the item at the head has been counted missed without claiming the port. -/
def State.missedAtHead (s : State) (it : ReleaseItem) : State :=
  { s with
    index := { s.index with
      tally := some { s.headTally it with missed := (s.headTally it).missed + 1 } }
    monitor := (s.setBranch it.branch
      { s.branch it.branch with relMissed := min 4294967295 ((s.branch it.branch).relMissed + 1) }).monitor }

/-- R140: after a RELEASE's last item RELEASE COMPLETE enters and the tally is discarded, or the notice waits with the
tally kept. -/
def State.releaseEnded (s : State) (last : Bool) : State :=
  match last, s.index.tally with
  | true, some t =>
    if s.link.notices.length < 128 then
      { s with
        index := { s.index with tally := none, completeHeld := false }
        link := s.link.noticed (.releaseComplete t.tag t.branch t.found t.freed t.missed) }
    else { s with index := { s.index with completeHeld := true } }
  | _, _ => s

/-- R137, R139, R140: how the release queue goes on from `s` when the items at its head have left and the list stands
in it: items of a length out of range are counted missed as they reach the head, until one that can claim the port is
there, with its RELEASE's tally begun, or RELEASE COMPLETE waits, or none is left. -/
inductive State.ReleasesGoOn : State → List ReleaseItem → State → Prop
  | empty (s : State) : ReleasesGoOn s [] { s with index := { s.index with releases := [] } }
  | stands (s : State) (it : ReleaseItem) (later : List ReleaseItem) : s.index.completeHeld = true →
      ReleasesGoOn s (it :: later) { s with index := { s.index with releases := it :: later } }
  | claims (s : State) (it : ReleaseItem) (later : List ReleaseItem) : s.index.completeHeld = false →
      1 ≤ it.length → it.length ≤ 65536 →
      ReleasesGoOn s (it :: later)
        { s with index := { s.index with releases := it :: later, tally := some (s.headTally it) } }
  | missed (s t : State) (it : ReleaseItem) (later : List ReleaseItem) : s.index.completeHeld = false →
      it.length = 0 ∨ 65536 < it.length → ReleasesGoOn ((s.missedAtHead it).releaseEnded it.last) later t →
      ReleasesGoOn s (it :: later) t

/-! ## Resets -/

/-- R166, R169, R171: what the settings store holds at a reset, and so which values the working settings take. -/
def State.storedAtReset (s : State) : Option Settings :=
  if s.ctl.programming.isSome then none else s.ctl.storeCopy

/-- R166, R5, R33, R39, R60, R62, R81, R89, R98, R134, R137, R161, R165, R169: every block's values after a reset,
written out; the tables in index memory stand until the clearing completes (log entry 4), and the model's own fields
stay. -/
def State.afterReset (s : State) (cause : ResetCause) (pin : Bool) : State where
  pending := s.pending
  freeNext := s.freeNext
  ctl :=
    { dev := .starting, cause := cause, pinHeld := pin, clearing := !pin, readyHeld := false,
      settings := s.storedAtReset.getD .factory, settingsValid := s.storedAtReset.isSome,
      storeCopy := s.storedAtReset, storeState := if s.storedAtReset.isSome then .valid else .invalid,
      programming := none, savedHeld := none, corrected := 0, faultCause := false, faultPending := none,
      resetTaken := false, seedWork := none, beginWork := none }
  link :=
    { credit := 0, outstanding := 0, checkCount := 0, lengthCount := 0, overrunCount := 0, checkMark := false,
      lengthMark := false, overrunMark := false, lastKind := 0, lastTag := 0, requests := [], replies := [],
      notices := [], lastServed := 64, tx := none }
  slots := []
  dataHeld := none
  sched := ⟨2 ^ (s.storedAtReset.getD .factory).frameExp, 0, 1⟩
  lanes := []
  waitOrder := []
  index :=
    { buckets := s.index.buckets, spill := s.index.spill, entryCount := 0, spillCount := 0, lookups := [],
      inflight := [], releases := [], tally := none, completeHeld := false, other := none, passed := 0,
      starving := none }
  place :=
    { containers := s.place.containers, openPlaces := [], freeList := [], nFull := 0, nReclaimable := 0, nLost := 0,
      held := none }
  walker := ⟨false, 0⟩
  marks := ⟨false, []⟩
  monitor := ⟨[], none⟩

/-! ## Claims on the index-memory port -/

/-- R63: the lookup at place `i` claims the port (behind a head no longer BLOCKED: log entry 47). -/
def State.LookupClaims (s : State) (i : Nat) : Prop :=
  ∃ q, s.index.lookups[i]? = some q ∧ q.state = .pending ∧
    (∀ j q', j < i → s.index.lookups[j]? = some q' → q'.lk.bucket ≠ q.lk.bucket) ∧
    q.lk.bucket ∉ s.index.inflight ∧ ∀ h, s.index.lookups[0]? = some h → h.state ≠ .blocked

/-- R72, R137, R140: the item at the head of the release queue claims the port. -/
abbrev State.ReleaseClaims (s : State) (it : ReleaseItem) : Prop :=
  s.index.releases.head? = some it ∧ 1 ≤ it.length ∧ it.length ≤ 65536 ∧ s.index.completeHeld = false ∧
    s.index.other = none ∧ bucketOf it.fp ∉ s.index.inflight

/-! ## Frames of the lane scheduler -/

/-- R44: the present frame has ended, by one of the two cases. -/
def State.FrameOver (s : State) : Prop :=
  s.sched.frameLen ≤ s.sched.grantCount ∨
    ((∀ n, 1 ≤ n → n ≤ 64 → s.eligible n = true → (s.slot n).budget = 0) ∧
      ∃ n, 1 ≤ n ∧ n ≤ 64 ∧ s.eligible n = true ∧
        (0 < (s.slot n).activeWeight ∨ ∃ w, (s.slot n).pendingWeight = some w ∧ 0 < w))

/-- R44, R40: what stands when a new frame has begun. -/
def State.newFrame (s : State) : State :=
  { s with
    slots := s.slots.map (fun p =>
      (p.1,
        if p.2.state = .free then p.2
        else
          { p.2 with
            activeWeight := p.2.pendingWeight.getD p.2.activeWeight
            pendingWeight := none
            budget := p.2.pendingWeight.getD p.2.activeWeight }))
    sched := ⟨2 ^ s.ctl.settings.frameExp, 0, if s.sched.startSlot = 64 then 1 else s.sched.startSlot + 1⟩ }

/-- R43: lane `l` is the lowest-numbered IDLE lane. -/
def State.LowestIdle (s : State) (l : Nat) : Prop :=
  1 ≤ l ∧ l ≤ 4 ∧ (s.lane l).state = .idle ∧ ∀ k, 1 ≤ k → k < l → (s.lane k).state ≠ .idle

/-! ## Chunks -/

/-- R26: the context once those bytes have been taken into it. -/
def Ctx.taking (p : Profile) (x : Ctx) (bytes : List Byte) : Ctx := bytes.foldl (Ctx.take p) x

/-- R27: no byte of the run passes a test. -/
def NoCut (p : Profile) (x : Ctx) (bytes : List Byte) : Prop :=
  ∀ pre, pre ≠ [] → pre <+: bytes → cutTest p (x.taking p pre) = none

/-- R32, R35, R53: the lookup a lane submits of the chunk in `x`. -/
def State.Submits (s : State) (n : Nat) (x : Ctx) (cut : CutReason) (lk : Lookup) : Prop :=
  lk.slot = n ∧ (∃ sp, (s.slot n).current = some sp ∧ lk.span = sp.number) ∧ lk.start = x.start ∧ lk.length = x.len ∧
    lk.fp = Config.fingerprint x.acc.reverse ∧ lk.cut = cut ∧ lk.bucket = lk.fp.toNat / 2 ^ 104 / 4

/-- R35, R60, R61, R102, R116: the state once the lookup has joined the lookup queue. -/
def State.joined (s : State) (lk : Lookup) : State :=
  { s with
    slots := (s.setSlot lk.slot
      { (s.slot lk.slot).onSpan lk.span (fun sp => { sp with outstanding := sp.outstanding + 1 }) with
        reserved := (s.slot lk.slot).reserved + 1 }).slots
    index := { s.index with
      lookups := s.index.lookups ++ [⟨lk, if s.index.lookups.length < 16 then .pending else .queued, none⟩] } }

/-! ## Markers -/

/-- R30, R31: the lane's work once it has reported the marker at `m` consumed. -/
def Work.pastMarker (w : Work) (m : Nat) : Work := { w with ctx := ⟨0, 0, m, []⟩, markerDone := true, held := none }

/-- R115, R120, R126: the slot once the MARK marker at `m` has ended its span `sp`: a new, live span begins there; an
open or sealed mark has its cut; and where a violation has taken the mark, a retired span without outstanding lookups
is removed. -/
def Slot.spanCut (sl : Slot) (sp : Span) (m : Nat) : Slot :=
  { sl with
    ended :=
      if sl.mark.phase = .none ∧ sp.retired = true ∧ sp.outstanding = 0 then none else some { sp with endOff := some m }
    current := some ⟨1 - sp.number, m, none, 0, .zero, [], false, 0, false⟩
    mark := if sl.mark.phase = .none then sl.mark else { sl.mark with cut := true } }

/-- R30, R115, R122, R123: lane `l` has reported the MARK marker at `m` consumed: the current span ends there, and the
mark settles if its conditions hold. -/
def State.MarkConsumed (s : State) (l : Nat) (w : Work) (m : Nat) (t : State) : Prop :=
  ∃ sp, (s.slot w.slot).current = some sp ∧
    State.Settled
      { s with
        lanes := (s.setLane l ⟨.working, some (w.pastMarker m)⟩).lanes
        slots := (s.setSlot w.slot ((s.slot w.slot).spanCut sp m)).slots } w.slot t

/-- R31, R110: lane `l` has reported the END marker at `m` consumed, and the last batch is called for if its conditions
hold. -/
def State.EndConsumed (s : State) (l : Nat) (w : Work) (m : Nat) (t : State) : Prop :=
  State.LastCalled
    { s with
      lanes := (s.setLane l ⟨.working, some (w.pastMarker m)⟩).lanes
      slots := (s.setSlot w.slot { s.slot w.slot with endConsumed := true }).slots } w.slot t

end Sys2Proof.Machine
end

