-- ==== Sys2Proof/Certificates/Slice0/Obligations.lean ====
section
/-! DEFINITION. The statements for the provers. -/

open Sys2Proof Sys2Proof.Machine

/-! ## The machine as a whole -/

/-- A step takes the command at the front of the queue and runs `exec` on the state that holds the queue's rest; on an
empty queue the engine idles (log entry 5). -/
def Obligations.StepTakesTheFront : Prop :=
  (∀ (c : Instr) (rest : List Instr) (s : State), s.pending = c :: rest →
    step s = exec c { s with pending := rest }) ∧
  ∀ s : State, s.pending = [] → step s = .next s

/-- Every command answers a next state in every state, and leaves the queue of waiting commands alone. Where the manual
gives a command's event conditions and they do not hold, that the command is no event and still answers is the model's
choice (log entry 10). -/
def Obligations.EveryCommandAnswersNext : Prop :=
  ∀ (c : Instr) (s : State), ∃ t, exec c s = .next t ∧ t.pending = s.pending

/-- Every step keeps the sparse tables (slots, lanes, buckets, spill table, container records, open places, branch
records) in their canonical form: numbers strictly rising, nothing listed at its resting value, every spill entry under
its own key. The form is the model's own (log entries 27 and 28); the manual gives the tables and their resting values
alone. -/
def Obligations.TablesStayCanonical : Prop :=
  ∀ s t : State, s.Canonical → step s = .next t → t.Canonical

/-- Every step keeps the queues and counters within the manual's ranges: the credit and the outstanding count (R158,
R155), the requests, the replies and a held DATA REFUSED that together make that count, at most 16 (R155 to R157), the
notices (R160), the link fault counters (R152), the corrected-error counter (R76), the lookup and release queues (R60,
R137), the input queues (R13), the round-robin and start slots (R159, R39), the grant count of a frame of 64, 128 or
256 (R44, R39), the budgets and weights (R46, R19), and the settings, working and stored (R169). -/
def Obligations.QueuesStayBounded : Prop :=
  ∀ s t : State, s.Bounded → step s = .next t → t.Bounded

/-- R62, R61, R60, R71: every step keeps the in-flight set at exactly the buckets of the READING and READ lookups and of
the one release, sweep or seed operation in progress, each once, at most 17, and every lookup beyond the first 16
QUEUED. -/
def Obligations.InFlightSetStaysExact : Prop :=
  ∀ s t : State, s.PortInOrder → step s = .next t → t.PortInOrder

/-- R101, R102, R116, R117, R41: every step keeps the filled and reserved places of every verdict queue at most 64
together, and the dependency set and the outstanding lookups of every span at most 32 together, with what the lanes can
still submit counted in; a place is reserved, and a lookup outstanding, for exactly the lookups in the lookup queue. -/
def Obligations.VerdictAndDependencyPlacesHold : Prop :=
  ∀ s t : State, s.PlacesInOrder → step s = .next t → t.PlacesInOrder ∧
    ∀ n, (t.slot n).filled.length + (t.slot n).reserved ≤ 64 ∧
      ∀ sp, (t.slot n).Has sp → sp.deps.length ≤ 32

/-- R166, R161: the state after reset meets the invariants. That state is the model's choice among the resets (log entry
3), and the canonical form is its own (log entries 27 and 28). -/
def Obligations.ResetMeetsTheInvariants : Prop :=
  State.reset.Canonical ∧ State.reset.Bounded ∧ State.reset.PortInOrder ∧ State.reset.PlacesInOrder

/-- The table of R165: the device state changes for these causes and no others. -/
def Obligations.DeviceStateChanges : Prop :=
  ∀ (c : Instr) (s t : State), exec c s = .next t → t.ctl.dev ≠ s.ctl.dev →
    (t.ctl.dev = .starting ∧
      (c ∈ [.powerOnReset, .resetPinAssert, .resetPinRelease] ∨ ∃ k, c = .frameTransmitted k)) ∨
    (s.ctl.dev = .starting ∧ t.ctl.dev = .restore ∧ c ∈ [.indexMemoryClearDone, .heldReadyEntry]) ∨
    (s.ctl.dev = .restore ∧ t.ctl.dev = .service ∧
      ((∃ k b, c = .beginService k b) ∨ ∃ k b, c = .heldContainerNoticeEntry k b)) ∨
    ((s.ctl.dev = .restore ∨ s.ctl.dev = .service) ∧ t.ctl.dev = .fault ∧ t.ctl.faultCause = true ∧
      (c = .indexMemoryError ∨ ∃ k b, c ∈ [.seed k (some b), .seedOpDone k (some b), .beginService k (some b),
        .heldContainerNoticeEntry k (some b)]))

/-- R176, R77, R33, R39, R98, R78, R134: in FAULT the lanes, the scheduler, the index unit, the sweep walker, the
placement unit's tables and the branch records keep their state under every command short of a reset. -/
def Obligations.FaultStopsTheEngine : Prop :=
  ∀ (c : Instr) (s t : State), s.ctl.dev = .fault → exec c s = .next t → t.ctl.dev = .fault →
    t.lanes = s.lanes ∧ t.waitOrder = s.waitOrder ∧ t.sched = s.sched ∧ t.index = s.index ∧ t.walker = s.walker ∧
    t.place = s.place ∧ t.monitor = s.monitor ∧ t.ctl.settings = s.ctl.settings ∧
    ∀ n, t.slot n = s.slot n ∨ t.slot n = { s.slot n with madeBatch := none }

/-- R166: while the reset pin is held the engine stays in reset: no command changes anything but power-on, and the
pin's own. -/
def Obligations.PinHoldsTheEngineInReset : Prop :=
  ∀ (c : Instr) (s : State), s.ctl.pinHeld = true →
    c ∉ [.powerOnReset, .resetPinAssert, .resetPinRelease] → exec c s = .next s

/-! ## Resets and start-up -/

/-- R166, R169, R171, R5 and the "after any reset" values of every chapter: power-on, the pin asserted, and the pin
released. The model's choices in it: index memory's tables stand until the clearing completes (log entry 4); power-on
leaves the pin as it stands, and the release of a pin not held is no event (log entry 19); the kind and tag of the last
overrun are 0, and the model's own fields stay (log entry 29).
R168, R51, R54, R78: the clearing completes; READY enters the notice queue and the device enters RESTORE, at once or
when room frees. -/
def Obligations.ResetsAndClearingBringUpTheEngine : Prop :=
  (∀ s : State,
      exec .powerOnReset s = .next (s.afterReset .power s.ctl.pinHeld) ∧
      exec .resetPinAssert s = .next (s.afterReset .pin true) ∧
      (s.ctl.pinHeld = true → exec .resetPinRelease s = .next (s.afterReset s.ctl.cause false)) ∧
      (s.ctl.pinHeld = false → exec .resetPinRelease s = .next s)) ∧
  ∀ s : State, s.ctl.pinHeld = false →
    (s.ctl.dev = .starting → s.ctl.clearing = true →
      exec .indexMemoryClearDone s =
        .next { s with
          index := { s.index with buckets := [], spill := [], entryCount := 0, spillCount := 0 }
          place := { s.place with containers := [] }
          ctl :=
            if s.link.notices.length < 128 then { s.ctl with clearing := false, dev := .restore, readyHeld := false }
            else { s.ctl with clearing := false, readyHeld := true }
          link :=
            if s.link.notices.length < 128 then
              s.link.noticed (.ready s.ctl.cause s.ctl.settingsValid s.ctl.storeState)
            else s.link }) ∧
    (s.ctl.dev = .starting → s.ctl.readyHeld = true → s.link.notices.length < 128 →
      exec .heldReadyEntry s =
        .next { s with
          ctl := { s.ctl with dev := .restore, readyHeld := false }
          link := s.link.noticed (.ready s.ctl.cause s.ctl.settingsValid s.ctl.storeState) })

/-- R167: RESET is refused in STARTING; elsewhere its reply is made at once and the controller takes no further
request, so that one at the head waits, and the reset takes effect when that reply has been transmitted. That the other
owners go on is log entry 14; the state after the reset has the model's choices of log entries 4 (the index tables) and
29 (kind and tag of the last overrun). -/
def Obligations.ResetRequestTakesEffectWhenAnswered : Prop :=
  (∀ (s : State) (r : Request) (rest : List Request), s.TakesNow .reset r rest →
    (s.ctl.dev = .starting →
      exec .reset s = .next { s with link := s.replied r rest (.refused .badState) .none }) ∧
    (s.ctl.dev ≠ .starting →
      exec .reset s =
        .next { s with ctl := { s.ctl with resetTaken := true }, link := s.replied r rest .done .none })) ∧
  (∀ (c : Instr) (k : Nat) (bad : Option Nat) (s : State), s.ctl.resetTaken = true →
    c ∈ [.status, .reset, .setSetting, .saveSettings, .declare k, .seed k bad, .beginService k bad] →
    exec c s = .next s) ∧
  ∀ (k : Nat) (s : State) (t : Tx) (r : Reply) (rest : List Reply), s.link.tx = some t → t.source = .reply →
    s.link.replies = r :: rest → r.kind = 2 → r.status = .done → s.ctl.pinHeld = false →
    exec (.frameTransmitted k) s = .next (s.afterReset .command false)

/-! ## The record link -/

/-- R150, R151: a frame made as R150 gives passes the three checks, and its fields and payload are read back as they
were sent, whatever they are. -/
def Obligations.FrameRoundTrip : Prop :=
  ∀ (kind stream tag : Nat) (payload : List Byte), kind < 256 → stream < 256 → tag < 65536 →
    payload.length ≤ 4102 →
    frameFault (frameBytes kind stream tag payload) = none ∧
    field (frameBytes kind stream tag payload) 2 1 = kind ∧
    field (frameBytes kind stream tag payload) 3 1 = stream ∧
    field (frameBytes kind stream tag payload) 4 2 = tag ∧
    framePayload (frameBytes kind stream tag payload) = payload ∧
    (frameBytes kind stream tag payload).length = payload.length + 10

/-- R164, R157, R153: the payload of a reply is its request's kind code, the status, the reason and the fields of the
table of replies; that of a notice and of a batch is as their tables give; and the enumerated values have the codes
given. R153, R159: the kind code, the class and the header's stream field of each notice are as the table of notices
gives. The entries of a SEED are read at every 28 bytes and the items of a RELEASE at every 20, the last one marked. -/
def Obligations.RecordsAreLaidOut : Prop :=
  (∀ r : Reply, ∃ p, r.frame = frameBytes 128 r.stream r.tag p ∧
    LaidOut p
      ([(1, r.kind), (1, match r.status with | .done => 0 | .clamped => 1 | .refused _ => 2),
        (1, match r.status with | .refused reason => reason.code | _ => 0)] ++ r.fields.layout)) ∧
  (∀ n : Notice, LaidOut n.payload n.layout ∧
    n.code = n.header.code ∧ n.cls = n.header.cls ∧ n.stream = n.header.stream) ∧
  (∀ b : Batch, LaidOut (batchBytes b) b.layout) ∧
  ([.badState, .unknownKind, .badLength, .noSlot, .branchBusy, .noStream, .badProfile, .markBusy, .noMark, .slotHeld,
    .locked, .held, .range, .queueFull, .offset, .noReport, .settingsBusy, .noContainer].map Reason.code =
      List.range' 1 18 ∧
    [.status, .reset, .credit, .setSetting, .saveSettings, .declare, .seed, .beginService, .openStream, .data, .mark,
      .seal, .readReport, .ackReport, .retime, .setWeight, .setPacing, .snapshot, .close, .abort, .durable, .lost,
      .free, .flush, .queryContainer, .release, .clearHold, .resetBaseline, .queryBranch].map ReqKind.code =
      List.range' 1 29 ∧
    [.free, .active, .draining, .aborting].map SlotState.code = [0, 1, 2, 3] ∧
    [.free, .open_, .full, .durable, .reclaimable, .lost].map ContState.code = [0, 1, 2, 3, 4, 5] ∧
    [.starting, .restore, .service, .fault].map DevState.code = [0, 1, 2, 3] ∧
    [.power, .pin, .command].map ResetCause.code = [0, 1, 2] ∧
    [.invalid, .valid, .saving].map StoreState.code = [0, 1, 2] ∧
    [.none, .open_, .sealing].map MarkPhase.code = [0, 1, 2] ∧ [.cold, .hot].map BranchPhase.code = [0, 1] ∧
    [.check, .length, .overrun].map LinkCause.code = [1, 2, 3] ∧
    [.space, .flush, .seal].map FullCause.code = [1, 2, 3] ∧ [.closed, .aborted].map CloseReason.code = [1, 2] ∧
    [.lmin, .ltgt, .lmax, .ks, .kl, .seed, .interval, .lengthCheck, .weight, .pacingPeriod, .threshold].map
      ClampField.code = List.range' 1 11 ∧
    [.new, .dup, .pass].map VerdictKind.code = [1, 2, 3] ∧
    [.max, .strict, .loose, .mark, .endCut].map CutReason.code = [1, 2, 3, 4, 5] ∧
    [.clean, .mismatch, .tainted, .violation].map Outcome.code = [0, 1, 2, 3] ∧
    [.matched, .different, .unknown].map LengthMatch.code = [0, 1, 2]) ∧
  (∀ (count : Nat) (p : List Byte), (seedEntries count p).length = count ∧
    ∀ i, i < count → ∃ e, (seedEntries count p)[i]? = some e ∧ e.fp.toNat = field p (28 * i) 16 ∧
      e.length = field p (28 * i + 16) 4 ∧ e.container = field p (28 * i + 20) 2 ∧
      e.offset = field p (28 * i + 22) 4 ∧ e.refs = field p (28 * i + 26) 2) ∧
  ∀ (branch tag count : Nat) (p : List Byte), (releaseItems branch tag count p).length = count ∧
    ∀ i, i < count → ∃ it, (releaseItems branch tag count p)[i]? = some it ∧ it.fp.toNat = field p (20 * i) 16 ∧
      it.length = field p (20 * i + 16) 4 ∧ it.branch = branch ∧ it.tag = tag ∧ (it.last = true ↔ i + 1 = count)

/-- R151: a frame that fails a check is discarded and counted under the cause of the first that fails.
R152: a link fault raises its cause's counter, which stays at its greatest value; with room and no pending mark it
makes a LINK FAULT, with the queue full it sets the mark, and with the mark set it only counts. A pending LINK FAULT
enters, in the order CHECK, LENGTH, OVERRUN, as a place frees. -/
def Obligations.BadFramesAreCountedAndTold : Prop :=
  (∀ (bytes : List Byte) (s : State), s.ctl.pinHeld = false →
      (bytes.length < 10 → exec (.frameReceived bytes) s = .next (s.linkFault .length)) ∧
      (10 ≤ bytes.length →
        (checkValue (bytes.take (bytes.length - 4))).toNat ≠ beNat (bytes.drop (bytes.length - 4)) →
        exec (.frameReceived bytes) s = .next (s.linkFault .check)) ∧
      (10 ≤ bytes.length →
        (checkValue (bytes.take (bytes.length - 4))).toNat = beNat (bytes.drop (bytes.length - 4)) →
        4102 < field bytes 0 2 ∨ field bytes 0 2 + 10 ≠ bytes.length →
        exec (.frameReceived bytes) s = .next (s.linkFault .length))) ∧
  ((∀ s : State,
      let n := min 4294967295 (s.link.checkCount + 1)
      s.linkFault .check =
        { s with
          link :=
            if s.link.checkMark = true then { s.link with checkCount := n }
            else if s.link.notices.length < 128 then
              { s.link with checkCount := n }.noticed (.linkFault .check n 0 0)
            else { s.link with checkCount := n, checkMark := true } }) ∧
    (∀ s : State,
      let n := min 4294967295 (s.link.lengthCount + 1)
      s.linkFault .length =
        { s with
          link :=
            if s.link.lengthMark = true then { s.link with lengthCount := n }
            else if s.link.notices.length < 128 then
              { s.link with lengthCount := n }.noticed (.linkFault .length n 0 0)
            else { s.link with lengthCount := n, lengthMark := true } }) ∧
    (∀ s : State,
      let n := min 4294967295 (s.link.overrunCount + 1)
      s.linkFault .overrun =
        { s with
          link :=
            if s.link.overrunMark = true then { s.link with overrunCount := n }
            else if s.link.notices.length < 128 then
              { s.link with overrunCount := n }.noticed (.linkFault .overrun n s.link.lastKind s.link.lastTag)
            else { s.link with overrunCount := n, overrunMark := true } }) ∧
    ∀ s : State, s.ctl.pinHeld = false → s.link.notices.length < 128 →
      (s.link.checkMark = true →
        exec .pendingLinkFaultEntry s =
          .next { s with
            link := { s.link with checkMark := false }.noticed (.linkFault .check s.link.checkCount 0 0) }) ∧
      (s.link.checkMark = false → s.link.lengthMark = true →
        exec .pendingLinkFaultEntry s =
          .next { s with
            link := { s.link with lengthMark := false }.noticed (.linkFault .length s.link.lengthCount 0 0) }) ∧
      (s.link.checkMark = false → s.link.lengthMark = false → s.link.overrunMark = true →
        exec .pendingLinkFaultEntry s =
          .next { s with
            link := { s.link with overrunMark := false }.noticed
              (.linkFault .overrun s.link.overrunCount s.link.lastKind s.link.lastTag) }))

/-- R154, R155, R156, R158, R164: what becomes of a good frame's record: CREDIT is taken, or its wrong length counted;
an OVERRUN at 16 outstanding; a kind code of no request and a payload length that does not suit its kind refused at
once; any other request queued. -/
def Obligations.GoodFramesAreReceived : Prop :=
  ∀ (bytes : List Byte) (s : State), s.ctl.pinHeld = false → frameFault bytes = none →
    let kind := field bytes 2 1
    let tag := field bytes 4 2
    let payload := framePayload bytes
    let more := { s.link with outstanding := s.link.outstanding + 1 }
    (kind = 3 → payload.length = 1 →
      exec (.frameReceived bytes) s =
        .next { s with link := { s.link with credit := min 255 (s.link.credit + field payload 0 1) } }) ∧
    (kind = 3 → payload.length ≠ 1 → exec (.frameReceived bytes) s = .next (s.linkFault .length)) ∧
    (kind ≠ 3 → 16 ≤ s.link.outstanding →
      exec (.frameReceived bytes) s =
        .next (State.linkFault { s with link := { s.link with lastKind := kind, lastTag := tag } } .overrun)) ∧
    (kind ≠ 3 → s.link.outstanding < 16 → kind = 0 ∨ 29 < kind →
      exec (.frameReceived bytes) s =
        .next { s with link := { more with
          replies := s.link.replies ++ [⟨kind, field bytes 3 1, tag, .refused .unknownKind, .none⟩] } }) ∧
    ∀ k : ReqKind, k.code = kind → kind ≠ 3 → s.link.outstanding < 16 →
      (¬ SuitsKind k payload →
        exec (.frameReceived bytes) s =
          .next { s with link := { more with
            replies := s.link.replies ++ [⟨kind, field bytes 3 1, tag, .refused .badLength, .none⟩] } }) ∧
      (SuitsKind k payload →
        exec (.frameReceived bytes) s =
          .next { s with link := { more with
            requests := s.link.requests ++ [⟨k, field bytes 3 1, tag, payload⟩] } })

/-- R158: CREDIT brings the credit to the lesser of 255 and its sum with the count, in every device state, and touches
nothing else; the engine transmits no record while its credit is 0; a record chosen costs one credit. -/
def Obligations.CreditIsSpentAndSaturates : Prop :=
  (∀ (count : Nat) (s : State), s.ctl.pinHeld = false →
    exec (.credit count) s = .next { s with link := { s.link with credit := min 255 (s.link.credit + count) } }) ∧
  (∀ s : State, s.link.credit = 0 → exec .transmitStart s = .next s) ∧
  ∀ s t : State, exec .transmitStart s = .next t → s.link.tx = none → t.link.tx ≠ none →
    t.link.credit + 1 = s.link.credit

/-- R159: the arbiter takes a reply before any notice, a notice of the lowest class that has one and the oldest of that
class, and a batch only when neither waits; the frame's header names the record, a notice's with the kind code and the
stream of the table (R153, R164). The header's tag of a notice is the
model's free value (log entry 2).
R159: class 6 is taken in round robin: of the streams with a made batch, the first after the last one served,
wrapping from 64 to 1. -/
def Obligations.TransmitChoosesByClassAndTurn : Prop :=
  (∀ s : State, s.ctl.pinHeld = false → s.link.tx = none → 0 < s.link.credit →
      (∀ r rest, s.link.replies = r :: rest →
        exec .transmitStart s =
          .next { s with link := { s.link with credit := s.link.credit - 1, tx := some ⟨.reply, r.frame⟩ } }) ∧
      (∀ (pre : List Notice) (n : Notice) (post : List Notice), s.link.replies = [] →
        s.link.notices = pre ++ n :: post → (∀ m ∈ pre, m.header.cls ≠ n.header.cls) →
        (∀ m ∈ s.link.notices, n.header.cls ≤ m.header.cls) →
        exec .transmitStart s =
          .next { s with
            freeNext := s.freeNext + 1
            link := { s.link with
              credit := s.link.credit - 1
              tx := some ⟨.notice n.header.cls,
                frameBytes n.header.code n.header.stream (Config.noticeTag s.freeNext) n.payload⟩ } })) ∧
  (∀ (s : State) (n : Nat) (b : Batch), s.ctl.pinHeld = false → s.link.tx = none → 0 < s.link.credit →
      s.link.replies = [] → s.link.notices = [] → 1 ≤ s.link.lastServed → s.link.lastServed ≤ 64 →
      1 ≤ n → n ≤ 64 → (s.slot n).madeBatch = some b →
      (∀ m, 1 ≤ m → m ≤ 64 → (s.slot m).madeBatch ≠ none →
        (n + 63 - s.link.lastServed) % 64 ≤ (m + 63 - s.link.lastServed) % 64) →
      exec .transmitStart s =
        .next { s with
          freeNext := s.freeNext + 1
          link := { s.link with
            credit := s.link.credit - 1
            lastServed := n
            tx := some ⟨.batch n, frameBytes 77 n (Config.noticeTag s.freeNext) (batchBytes b)⟩ } })

/-- R159, R155, R109, R110, R111, R16, R18, R113: when a frame's last byte has been sent its record leaves its place:
a reply lowers the outstanding count, a notice frees its place, a batch its made-batch place. A batch that is due is
then made at once, as the last batch with FINAL, or with FINAL and ABORTED and the stream's reports discarded, if
those conditions hold; after the last batch STREAM CLOSED enters and frees the slot, if no report stands in its places
and there is room. That the last batch of an aborted stream discards its waiting hand-on is log entry 39, and that a
batch called for as FINAL before an ABORT can be made as an ordinary one is log entry 46. In FAULT nothing is made. -/
def Obligations.SentRecordsLeaveTheirPlaces : Prop :=
  ∀ (k : Nat) (s : State) (t : Tx), s.link.tx = some t → s.ctl.pinHeld = false →
    let s' := s.noteCorrected k
    (∀ r rest, t.source = .reply → s.link.replies = r :: rest → r.kind ≠ 2 ∨ r.status ≠ .done →
      exec (.frameTransmitted k) s =
        .next { s' with link := { s.link with
          tx := none, replies := rest, outstanding := s.link.outstanding - 1 } }) ∧
    (∀ (c : Nat) (pre : List Notice) (n : Notice) (post : List Notice), t.source = .notice c →
      s.link.notices = pre ++ n :: post → n.header.cls = c → (∀ m ∈ pre, m.header.cls ≠ c) →
      exec (.frameTransmitted k) s = .next { s' with link := { s.link with tx := none, notices := pre ++ post } }) ∧
    ∀ n, t.source = .batch n →
      let empty := { s.slot n with madeBatch := none }
      let leaves := fun v : Slot =>
        exec (.frameTransmitted k) s =
          .next { s' with link := { s.link with tx := none }, slots := (s.setSlot n v).slots }
      (s.ctl.dev ≠ .service → leaves empty) ∧
      (s.ctl.dev = .service → (s.slot n).finalMade = false →
        (¬ s.LastBatchDue n → leaves (if (s.slot n).due = true then empty.batchMade false false else empty)) ∧
        (s.LastBatchDue n → (s.slot n).state = .draining → leaves (empty.batchMade true false)) ∧
        (s.LastBatchDue n → (s.slot n).state = .aborting → s.NoSealBehind n →
          exec (.frameTransmitted k) s =
            .next { s'.discarded n with
              link := { s.link with tx := none }
              slots := (s.setSlot n (empty.batchMade true true).reportsDiscarded).slots })) ∧
      ∀ b, s.ctl.dev = .service → (s.slot n).finalMade = true → (s.slot n).branch = some b →
        (s.slot n).state = .draining ∨ (s.slot n).state = .aborting →
        let clear := (s.slot n).reportSlot = none ∧ (s.slot n).waiting = none ∧ (s.slot n).heldReport = none
        (clear → s.laneHolds n = false → s.link.notices.length < 128 →
          exec (.frameTransmitted k) s =
            .next (State.streamClosed { s' with link := { s.link with tx := none } } n b (s.slot n))) ∧
        (¬ clear ∨ 128 ≤ s.link.notices.length → leaves empty)

/-! ## The start-up and settings controller -/

/-- R175, R21, R129, R97, R135: the five requests that read: the reply carries the figures as they stand, and nothing
else changes. R80, R135, R165: outside SERVICE QUERY CONTAINER and QUERY BRANCH are refused BAD-STATE. -/
def Obligations.ReadingRequestsOnlyReply : Prop :=
  ∀ (s : State) (r : Request) (rest : List Request),
    (s.TakesNow .status r rest →
      exec .status s = .next { s with link := s.replied r rest .done (.status
        { dev := s.ctl.dev, cause := s.ctl.cause, settingsValid := s.ctl.settingsValid, store := s.ctl.storeState,
          freeList := s.place.freeList.length, spill := s.index.spillCount, entries := s.index.entryCount,
          check := s.link.checkCount, length := s.link.lengthCount, overrun := s.link.overrunCount,
          corrected := s.ctl.corrected, lanes := (s.lanes.filter (fun p => p.2.state != .idle)).length,
          streams := (s.slots.filter (fun p => p.2.state != .free)).length, fault := s.ctl.faultCause }) }) ∧
    (∀ sp, s.TakesNow .snapshot r rest → s.Addressed r → (s.slot r.stream).current = some sp →
      exec .snapshot s = .next { s with link := s.replied r rest .done (.snapshot
        { state := (s.slot r.stream).state, branch := (s.slot r.stream).branch.getD 0,
          group := (s.slot r.stream).group.getD 0, nextOffset := (s.slot r.stream).nextOffset,
          consumed := (s.slot r.stream).consumed, queued := (s.slot r.stream).queue.length,
          laneHolds := s.laneHolds r.stream, activeWeight := (s.slot r.stream).activeWeight,
          pendingWeight := (s.slot r.stream).pendingWeight, activePacing := (s.slot r.stream).activePacing.getD 0,
          pendingPacing := (s.slot r.stream).pendingPacing, phase := (s.slot r.stream).mark.phase,
          totals := (s.slot r.stream).totals, spanNumber := sp.number, spanStart := sp.start,
          counters := sp.counters, outstanding := sp.outstanding }) }) ∧
    (s.TakesNow .readReport r rest → s.Addressed r →
      ((s.slot r.stream).reportSlot = none →
        exec .readReport s = .next { s with link := s.replied r rest (.refused .noReport) .none }) ∧
      ∀ rep age, (s.slot r.stream).reportSlot = some (rep, age) →
        exec .readReport s = .next { s with
          link := s.replied r rest .done (.readReport rep age (s.slot r.stream).waiting.isSome) }) ∧
    (∀ k, s.TakesNow .queryContainer r rest → s.ctl.dev = .service →
      exec (.queryContainer k) s = .next { s with
        ctl := { s.ctl with corrected := min 4294967295 (s.ctl.corrected + k) }
        link := s.replied r rest .done (.queryContainer
          { container := field r.payload 0 2, state := (s.container (field r.payload 0 2)).state,
            group := (s.container (field r.payload 0 2)).group,
            capacity := (s.container (field r.payload 0 2)).capacity,
            fill := (s.container (field r.payload 0 2)).fill,
            entries := (s.container (field r.payload 0 2)).entries,
            live := (s.container (field r.payload 0 2)).live,
            isOpen := (s.container (field r.payload 0 2)).state == .open_,
            position := s.freePosition (field r.payload 0 2), spans := s.spansHolding (field r.payload 0 2) }) }) ∧
    (s.TakesNow .queryBranch r rest → s.ctl.dev = .service →
      exec .queryBranch s = .next { s with
        link := s.replied r rest .done (.queryBranch (field r.payload 0 1) (s.branch (field r.payload 0 1))) }) ∧
    (s.ctl.dev ≠ .service →
      (∀ k, s.TakesNow .queryContainer r rest →
        exec (.queryContainer k) s =
          .next { s.noteCorrected k with link := s.replied r rest (.refused .badState) .none }) ∧
      (s.TakesNow .queryBranch r rest →
        exec .queryBranch s = .next { s with link := s.replied r rest (.refused .badState) .none }))

/-- R170, R169: SET SETTING stores the value, brought to the nearest end of its setting's range as the table of the
fifteen settings gives it, under its number, names the value in its reply, and is refused BAD-STATE, SETTINGS-BUSY or
RANGE, in that order, with nothing changed.
R171: SAVE SETTINGS is refused BAD-STATE in STARTING and FAULT and SETTINGS-BUSY while the store is programmed, and
otherwise begins programming the store with the working settings; when it ends the store holds the copy and
SETTINGS SAVED and the VALID store state come together, at once or when room frees. -/
def Obligations.SettingsAreSetAndSaved : Prop :=
  (∀ (s : State) (r : Request) (rest : List Request), s.TakesNow .setSetting r rest →
      (s.ctl.dev = .starting ∨ s.ctl.dev = .fault →
        exec .setSetting s = .next { s with link := s.replied r rest (.refused .badState) .none }) ∧
      (s.ctl.dev = .restore ∨ s.ctl.dev = .service → s.ctl.storeState = .saving →
        exec .setSetting s = .next { s with link := s.replied r rest (.refused .settingsBusy) .none }) ∧
      (s.ctl.dev = .restore ∨ s.ctl.dev = .service → s.ctl.storeState ≠ .saving →
        (field r.payload 0 1 = 0 ∨ 15 < field r.payload 0 1 →
          exec .setSetting s = .next { s with link := s.replied r rest (.refused .range) .none }) ∧
        ∀ lo hi w, (field r.payload 0 1, lo, hi) ∈ settingTable →
          s.ctl.settings.With (field r.payload 0 1) (max lo (min hi (field r.payload 1 4))) w →
          exec .setSetting s = .next { s with
            ctl := { s.ctl with settings := w }
            link :=
              if lo ≤ field r.payload 1 4 ∧ field r.payload 1 4 ≤ hi then
                s.replied r rest .done (.setSetting (field r.payload 0 1) (field r.payload 1 4))
              else
                s.replied r rest .clamped
                  (.setSetting (field r.payload 0 1) (max lo (min hi (field r.payload 1 4)))) })) ∧
  (∀ s : State, s.ctl.pinHeld = false →
      (∀ r rest, s.TakesNow .saveSettings r rest → s.ctl.dev = .starting ∨ s.ctl.dev = .fault →
        exec .saveSettings s = .next { s with link := s.replied r rest (.refused .badState) .none }) ∧
      (∀ r rest, s.TakesNow .saveSettings r rest → s.ctl.dev = .restore ∨ s.ctl.dev = .service →
        s.ctl.storeState = .saving →
        exec .saveSettings s = .next { s with link := s.replied r rest (.refused .settingsBusy) .none }) ∧
      (∀ r rest, s.TakesNow .saveSettings r rest → s.ctl.dev = .restore ∨ s.ctl.dev = .service →
        s.ctl.storeState ≠ .saving →
        exec .saveSettings s = .next { s with
          ctl := { s.ctl with storeState := .saving, programming := some s.ctl.settings }
          link := s.replied r rest .done .none }) ∧
      (∀ w, s.ctl.programming = some w →
        exec .settingsProgramDone s = .next { s with
          ctl :=
            if s.link.notices.length < 128 then
              { s.ctl with programming := none, storeCopy := some w, storeState := .valid, savedHeld := none }
            else { s.ctl with programming := none, storeCopy := some w, savedHeld := some w }
          link := if s.link.notices.length < 128 then s.link.noticed (.settingsSaved w) else s.link }) ∧
      (∀ w, s.ctl.savedHeld = some w → s.link.notices.length < 128 →
        exec .heldSettingsSavedEntry s = .next { s with
          ctl := { s.ctl with storeState := .valid, savedHeld := none }
          link := s.link.noticed (.settingsSaved w) }))

/-- R172: DECLARE makes a FREE container DURABLE with the group, capacity and fill given; it is refused BAD-STATE
outside RESTORE, RANGE when a field is out of range, BAD-STATE when the container is not FREE. -/
def Obligations.DeclareMakesAContainerDurable : Prop :=
  ∀ (k : Nat) (s : State) (r : Request) (rest : List Request), s.TakesNow .declare r rest →
    let c := field r.payload 0 2
    let cap := field r.payload 3 4
    let inRange := field r.payload 11 1 = 3 ∧ field r.payload 2 1 ≤ 7 ∧ 1048576 ∣ cap ∧ 4194304 ≤ cap ∧
      cap ≤ 67108864 ∧ field r.payload 7 4 ≤ cap
    let s' := s.noteCorrected k
    (s.ctl.dev ≠ .restore →
      exec (.declare k) s = .next { s' with link := s.replied r rest (.refused .badState) .none }) ∧
    (s.ctl.dev = .restore → ¬ inRange →
      exec (.declare k) s = .next { s' with link := s.replied r rest (.refused .range) .none }) ∧
    (s.ctl.dev = .restore → inRange → (s.container c).state ≠ .free →
      exec (.declare k) s = .next { s' with link := s.replied r rest (.refused .badState) .none }) ∧
    (s.ctl.dev = .restore → inRange → (s.container c).state = .free →
      exec (.declare k) s = .next { s' with
        place := (s.setContainer c ⟨.durable, some (field r.payload 2 1), cap, field r.payload 7 4, 0, 0⟩).place
        link := s.replied r rest .done .none })

/-- R173, R176: SEED is refused BAD-STATE outside RESTORE and RANGE for a count of 0 or above 32; otherwise its
entries are judged in order: those whose container is not DURABLE count CONTAINER, then those with a bad field FIELD,
without claiming the port, and the first that is neither claims it for its bucket; with none left the reply carries
the counts; and an uncorrectable error at the read for an entry puts the device in FAULT and the SEED is refused. -/
def Obligations.SeedJudgesItsEntries : Prop :=
  ∀ (k : Nat) (bad : Option Nat) (s : State) (r : Request) (rest : List Request), s.TakesNow .seed r rest →
    let s' := s.noteCorrected k
    (s.ctl.dev ≠ .restore →
      exec (.seed k bad) s = .next { s' with link := s.replied r rest (.refused .badState) .none }) ∧
    (s.ctl.dev = .restore → field r.payload 0 1 = 0 ∨ 32 < field r.payload 0 1 →
      exec (.seed k bad) s = .next { s' with link := s.replied r rest (.refused .range) .none }) ∧
    (s.ctl.dev = .restore → 1 ≤ field r.payload 0 1 → field r.payload 0 1 ≤ 32 →
      s'.SeedGoesOn r rest bad ⟨[], 0, 0, 0, 0, 0⟩ (seedEntries (field r.payload 0 1) (r.payload.drop 1))
        (exec (.seed k bad) s))

/-- R173, R56, R79, R59, R176: the bucket operation of a SEED's entry in hand: a key already present counts DUPLICATE,
a full bucket and spill table ROOM, and otherwise the entry is inserted and its container's accounting rises; the
operation gives up the port and the bucket, and the SEED goes on with the entries after it, to the next claim, the
reply with the five counts, or FAULT, at which the entry taken stays. -/
def Obligations.SeedOperationInsertsOrCounts : Prop :=
  ∀ (k : Nat) (bad : Option Nat) (s : State) (r : Request) (rest : List Request) (w : SeedWork) (e : SeedEntry)
    (later : List SeedEntry) (b : Nat),
    s.ctl.dev = .restore → s.ctl.pinHeld = false → s.link.requests = r :: rest → s.ctl.seedWork = some w →
    w.rest = e :: later → s.index.other = some (.seed b) → b = bucketOf e.fp →
    let index := { s.index with other := none, inflight := s.index.inflight.filter (fun x => x != b) }
    let s' := { s.noteCorrected k with index := index }
    let c := s.container e.container
    let taken := (s.setContainer e.container { c with entries := c.entries + 1, live := c.live + e.length }).place
    let new : IndexEntry := ⟨e.fp, e.length, e.container, e.offset, e.refs⟩
    let absent := (∀ x ∈ (s.bucket b).entries, ¬ (x.fp = e.fp ∧ x.length = e.length)) ∧
      ((s.bucket b).spill = 0 ∨ s.spillAt e.fp e.length = none)
    (¬ absent →
      s'.SeedGoesOn r rest bad { w with duplicate := w.duplicate + 1 } later (exec (.seedOpDone k bad) s)) ∧
    (absent → 8 ≤ (s.bucket b).entries.length → 65536 ≤ s.index.spillCount →
      s'.SeedGoesOn r rest bad { w with room := w.room + 1 } later (exec (.seedOpDone k bad) s)) ∧
    (absent → (s.bucket b).entries.length < 8 →
      State.SeedGoesOn
        { s' with
          index := { index with
            buckets := (s.setBucket b { s.bucket b with entries := (s.bucket b).entries ++ [new] }).index.buckets
            entryCount := s.index.entryCount + 1 }
          place := taken }
        r rest bad { w with taken := w.taken + 1 } later (exec (.seedOpDone k bad) s)) ∧
    (absent → 8 ≤ (s.bucket b).entries.length → s.index.spillCount < 65536 →
      State.SeedGoesOn
        { s' with
          index := { index with
            buckets := (s.setBucket b { s.bucket b with spill := (s.bucket b).spill + 1 }).index.buckets
            spill := (s.setSpill e.fp e.length (some ⟨new, b⟩)).index.spill
            entryCount := s.index.entryCount + 1
            spillCount := s.index.spillCount + 1 }
          place := taken }
        r rest bad { w with taken := w.taken + 1 } later (exec (.seedOpDone k bad) s))

/-- R174, R89, R91, R176: BEGIN SERVICE makes the DURABLE containers without entries RECLAIMABLE in ascending order,
each with its notice, and is held in RESTORE where the notice queue fills; HELD_CONTAINER_NOTICE_ENTRY goes on with it
as room frees; with none left every FREE container's number is on the free list in ascending order and the device
enters SERVICE with its reply; an uncorrectable error at a record ends it in FAULT, the containers made before it
staying so. -/
def Obligations.BeginServiceEntersService : Prop :=
  (∀ (k : Nat) (bad : Option Nat) (s : State) (r : Request) (rest : List Request), s.TakesNow .beginService r rest →
    tableWf Container.free s.place.containers = true →
    (s.ctl.dev ≠ .restore →
      exec (.beginService k bad) s =
        .next { s.noteCorrected k with link := s.replied r rest (.refused .badState) .none }) ∧
    (s.ctl.dev = .restore → (s.noteCorrected k).BeginGoesOn r rest 0 bad (exec (.beginService k bad) s))) ∧
  ∀ (k : Nat) (bad : Option Nat) (s : State) (r : Request) (rest : List Request) (made : Nat), s.ctl.dev = .restore →
    s.ctl.pinHeld = false → s.ctl.beginWork = some made → s.link.requests = r :: rest →
    s.link.notices.length < 128 → tableWf Container.free s.place.containers = true →
    (s.noteCorrected k).BeginGoesOn r rest made bad (exec (.heldContainerNoticeEntry k bad) s)

/-- R176, R162, R173, R174: an uncorrectable error puts the device in FAULT from RESTORE or SERVICE; the FAULT notice
enters or is kept pending, a request then held or worked is answered REFUSED BAD-STATE, and every other block keeps its
state. In FAULT a further error is only counted (R77). -/
def Obligations.UncorrectableErrorEntersFault : Prop :=
  ∀ s : State, s.ctl.pinHeld = false →
    (s.ctl.dev = .restore ∨ s.ctl.dev = .service → s.marks.ackHeld = false → s.place.held ≠ some .request →
      s.ctl.seedWork = none → s.ctl.beginWork = none →
      exec .indexMemoryError s = .next { s with
        ctl :=
          if s.link.notices.length < 128 then { s.ctl with dev := .fault, faultCause := true }
          else { s.ctl with dev := .fault, faultCause := true, faultPending := some s.ctl.dev }
        link := if s.link.notices.length < 128 then s.link.noticed (.fault s.ctl.dev) else s.link }) ∧
    (∀ r rest, s.ctl.dev = .restore ∨ s.ctl.dev = .service → s.link.requests = r :: rest →
      s.marks.ackHeld = true ∨ s.place.held = some .request ∨ s.ctl.seedWork ≠ none ∨ s.ctl.beginWork ≠ none →
      exec .indexMemoryError s = .next (s.faulted r rest)) ∧
    (s.ctl.dev = .fault →
      exec .indexMemoryError s =
        .next { s with ctl := { s.ctl with corrected := min 4294967295 (s.ctl.corrected + 1) } }) ∧
    (∀ d, s.ctl.faultPending = some d → s.link.notices.length < 128 →
      exec .pendingFaultEntry s =
        .next { s with ctl := { s.ctl with faultPending := none }, link := s.link.noticed (.fault d) })

/-! ## Streams -/

/-- R6, R9, R10, R8: an OPEN whose checks pass takes the lowest-numbered FREE slot, fills it as R9 gives, binds the
branch, whose margin is set at its first binding, and is answered DONE, or CLAMPED with the fields brought into
range.
R6: the refusals of OPEN, in the order of its checks; each changes no slot and no branch record. -/
def Obligations.OpenFillsASlotOrIsRefused : Prop :=
  (∀ (s : State) (r : Request) (rest : List Request) (blocks : List ParamBlock) (v : OpenValues) (n : Nat),
      s.TakesNow .openStream r rest → s.ctl.dev = .service → parseBlocks (r.payload.drop 2) = some blocks →
      field r.payload 1 1 ≤ 7 → (s.branch (field r.payload 0 1)).bound = none →
      gatherOpen s.ctl.settings blocks = some v → 1 ≤ n → n ≤ 64 → (s.slot n).state = .free →
      (∀ m, 1 ≤ m → m < n → (s.slot m).state ≠ .free) →
      exec .openStream s = .next { s with
        slots := (s.setSlot n
          { state := .active, branch := some (field r.payload 0 1), group := some (field r.payload 1 1),
            profile := some v.profile, interval := some v.interval, lengthCheck := some v.lengthCheck,
            activeWeight := v.weight, pendingWeight := none, activePacing := some v.pacing, pendingPacing := none,
            pacingCounter := 0, threshold := some v.threshold, nextOffset := 0, consumed := 0, queue := [],
            ctx := some ⟨0, 0, 0, []⟩, current := some ⟨0, 0, none, 0, .zero, [], false, 0, false⟩, ended := none,
            mark := ⟨.none, none, none, false, none, 0, 0⟩, reportSlot := none, waiting := none, heldReport := none,
            filled := [], reserved := 0, madeBatch := none, due := false, endConsumed := false, finalMade := false,
            totals := .zero, budget := v.weight }).slots
        monitor := (s.setBranch (field r.payload 0 1)
          { s.branch (field r.payload 0 1) with
            bound := some n
            margin := some ((s.branch (field r.payload 0 1)).margin.getD s.ctl.settings.margin) }).monitor
        link := s.replied r rest (if v.clamped = [] then .done else .clamped) (.openStream n v.clamped) }) ∧
  ∀ (s : State) (r : Request) (rest : List Request), s.TakesNow .openStream r rest →
    let refused := fun reason : Reason =>
      exec .openStream s = .next { s with link := s.replied r rest (.refused reason) .none }
    (s.ctl.dev ≠ .service → refused .badState) ∧
    (s.ctl.dev = .service →
      (parseBlocks (r.payload.drop 2) = none → refused .badProfile) ∧
      ∀ blocks, parseBlocks (r.payload.drop 2) = some blocks →
        (7 < field r.payload 1 1 → refused .range) ∧
        (field r.payload 1 1 ≤ 7 →
          ((s.branch (field r.payload 0 1)).bound ≠ none → refused .branchBusy) ∧
          ((s.branch (field r.payload 0 1)).bound = none →
            (gatherOpen s.ctl.settings blocks = none → refused .badProfile) ∧
            (gatherOpen s.ctl.settings blocks ≠ none →
              (∀ m, 1 ≤ m → m ≤ 64 → (s.slot m).state ≠ .free) → refused .noSlot))))

/-- R7: the bytes of an OPEN are read as parameter blocks exactly when they are the blocks one after another, each a
type byte, a length byte that suits the type, and its fields, no type twice.
R8, R23: what is gathered from them: the fields of a CHECKPOINT or SHARE block brought into their ranges and named
where that changed them, in the order of R7's table, and a family left out taken from the working settings and not
named; and nothing, exactly when the CHUNKING block, or without one the default profile, has Lmin above Lmax. -/
def Obligations.OpenParametersAreGathered : Prop :=
  (∀ (bytes : List Byte) (bs : List ParamBlock), parseBlocks bytes = some bs ↔
    bytes = bs.flatMap (fun b => BitVec.ofNat 8 b.type :: BitVec.ofNat 8 b.fields.length :: b.fields) ∧
    (∀ b ∈ bs, (b.type, b.fields.length) ∈ [(1, 18), (2, 3), (3, 4)]) ∧ (bs.map ParamBlock.type).Nodup) ∧
  ∀ (w : Settings) (bs : List ParamBlock), (bs.map ParamBlock.type).Nodup →
    (gatherOpen w bs = none ↔
      (∃ f, ⟨1, f⟩ ∈ bs ∧ profileOfBlock f = none) ∨ ((∀ b ∈ bs, b.type ≠ 1) ∧ w.lmax < w.lmin)) ∧
    ∀ v, gatherOpen w bs = some v → ∃ n₁ n₂ n₃, v.clamped = n₁ ++ n₂ ++ n₃ ∧
      (∀ f, ⟨1, f⟩ ∈ bs → profileOfBlock f = some (v.profile, n₁)) ∧
      ((∀ b ∈ bs, b.type ≠ 1) → n₁ = [] ∧ v.profile =
        ⟨w.lmin, max w.lmin (min w.lmax w.ltgt), w.lmax, w.ks, if w.kl < 6 then 6 else min w.ks w.kl, w.seed,
          gearTable w.seed⟩) ∧
      (∀ f, ⟨2, f⟩ ∈ bs → v.interval = max 10 (min 3600 (field f 0 2)) ∧
        (v.lengthCheck = true ↔ 1 ≤ field f 2 1) ∧
        n₂ = (if 10 ≤ field f 0 2 ∧ field f 0 2 ≤ 3600 then [] else [.interval]) ++
          (if field f 2 1 ≤ 1 then [] else [.lengthCheck])) ∧
      ((∀ b ∈ bs, b.type ≠ 2) → v.interval = w.interval ∧ (v.lengthCheck = true ↔ w.lengthCheck = 1) ∧ n₂ = []) ∧
      (∀ f, ⟨3, f⟩ ∈ bs → v.weight = field f 0 1 ∧ v.pacing = max 1 (min 10000 (field f 1 2)) ∧
        v.threshold = max 1 (min 64 (field f 3 1)) ∧
        n₃ = (if 1 ≤ field f 1 2 ∧ field f 1 2 ≤ 10000 then [] else [.pacingPeriod]) ++
          (if 1 ≤ field f 3 1 ∧ field f 3 1 ≤ 64 then [] else [.threshold])) ∧
      ((∀ b ∈ bs, b.type ≠ 3) → v.weight = w.weight ∧ v.pacing = w.pacing ∧ v.threshold = w.threshold ∧ n₃ = [])

/-- R23: a CHUNKING block is brought into range in two passes, and is refused exactly when its clamped Lmin exceeds its
clamped Lmax; the fields named are those the clamping changed, in order. R24: the gear table is made from the seed. -/
def Obligations.ChunkingBlockIsClamped : Prop :=
  ∀ f : List Byte,
    let sent := (field f 0 4, field f 4 4, field f 8 4, field f 12 1, field f 13 1)
    let lmin := max 256 (min 16384 sent.1)
    let lmax := max 1024 (min 65536 sent.2.2.1)
    let ks := max 8 (min 20 sent.2.2.2.1)
    let ltgt := max lmin (min lmax sent.2.1)
    let kl := max 6 (min ks sent.2.2.2.2)
    (lmax < lmin → profileOfBlock f = none) ∧
    (lmin ≤ lmax → ∃ p names, profileOfBlock f = some (p, names) ∧
      p.lmin = lmin ∧ p.ltgt = ltgt ∧ p.lmax = lmax ∧ p.ks = ks ∧ p.kl = kl ∧ p.seed = field f 14 4 ∧
      p.lmin ≤ p.ltgt ∧ p.ltgt ≤ p.lmax ∧
      (∀ b : Byte, (p.gearOf b).toNat = ((b.toNat + 1) * 2654435761 + field f 14 4) % 4294967296) ∧
      names.Sublist [.lmin, .ltgt, .lmax, .ks, .kl] ∧
      (ClampField.lmin ∈ names ↔ lmin ≠ sent.1) ∧ (ClampField.ltgt ∈ names ↔ ltgt ≠ sent.2.1) ∧
      (ClampField.lmax ∈ names ↔ lmax ≠ sent.2.2.1) ∧ (ClampField.ks ∈ names ↔ ks ≠ sent.2.2.2.1) ∧
      (ClampField.kl ∈ names ↔ kl ≠ sent.2.2.2.2))

/-- R2, R4: a stream request that fails an addressing check is refused with that check's reason and changes nothing. -/
def Obligations.MisaddressedRequestsAreRefused : Prop :=
  ∀ (s : State) (r : Request) (rest : List Request) (reason : Reason), s.Misaddressed r reason →
    (∀ c kind, (c, kind) ∈ plainStreamRows → s.TakesNow kind r rest →
      exec c s = .next { s with link := s.replied r rest (.refused reason) .none }) ∧
    ∀ k,
      (s.TakesNow .seal r rest →
        exec (.seal k) s = .next { s.noteCorrected k with link := s.replied r rest (.refused reason) .none }) ∧
      (s.TakesNow .abort r rest →
        exec (.abort k) s = .next { s.noteCorrected k with link := s.replied r rest (.refused reason) .none })

/-- R11, R12, R14, R154, R155: DATA that passes its five checks joins the input queue and moves the next accepted
offset; one that fails the first of them is dropped with DATA REFUSED, which the stream table holds while the notice
queue is full; a held one enters when room frees, in FAULT too (R162). R12: while it is held, every request behind the
dropped record waits, whichever block owns it. -/
def Obligations.DataIsTakenOrDropped : Prop :=
  (∀ (s : State) (r : Request) (rest : List Request), s.TakesNow .data r rest →
    let whole := 6 ≤ r.payload.length
    let off := if r.payload.length < 6 then 0 else field r.payload 0 6
    let bytes := r.payload.drop 6
    let sl := s.slot r.stream
    let dropped := fun (reason : Reason) (next : Nat) =>
      exec .data s =
        .next (if s.link.notices.length < 128 then
          { s with link := { s.link with
            requests := rest
            notices := s.link.notices ++ [.dataRefused r.stream reason off bytes.length next]
            outstanding := s.link.outstanding - 1 } }
        else
          { s with
            dataHeld := some (.dataRefused r.stream reason off bytes.length next)
            link := { s.link with requests := rest } })
    (r.stream = 0 ∨ 64 < r.stream → s.ctl.dev = .service → dropped .range 0) ∧
    (s.ctl.dev ≠ .service →
      dropped .badState (if 1 ≤ r.stream ∧ r.stream ≤ 64 then sl.nextOffset else 0)) ∧
    (s.ctl.dev = .service → 1 ≤ r.stream → r.stream ≤ 64 → sl.state ≠ .active → dropped .badState sl.nextOffset) ∧
    (s.ctl.dev = .service → 1 ≤ r.stream → r.stream ≤ 64 → sl.state = .active →
      (bytes = [] → dropped .range sl.nextOffset) ∧
      (bytes ≠ [] → whole →
        (off ≠ sl.nextOffset → dropped .offset sl.nextOffset) ∧
        (off = sl.nextOffset → 2 ^ 48 - 1 < off + bytes.length → dropped .range sl.nextOffset) ∧
        (off = sl.nextOffset → off + bytes.length ≤ 2 ^ 48 - 1 → 8 ≤ sl.queue.length →
          dropped .queueFull sl.nextOffset) ∧
        (off = sl.nextOffset → off + bytes.length ≤ 2 ^ 48 - 1 → sl.queue.length < 8 →
          exec .data s =
            .next { s with
              slots := (s.setSlot r.stream { sl with
                queue := sl.queue ++ [.data off bytes]
                nextOffset := sl.nextOffset + bytes.length
                totals := { sl.totals with accepted := sl.totals.accepted + bytes.length } }).slots
              link := { s.link with requests := rest, outstanding := s.link.outstanding - 1 } })))) ∧
  (∀ (s : State) (note : Notice), s.dataHeld = some note → s.ctl.pinHeld = false → s.link.notices.length < 128 →
    exec .heldDataRefusedEntry s =
      .next { s with
        dataHeld := none
        link := { s.link with notices := s.link.notices ++ [note], outstanding := s.link.outstanding - 1 } }) ∧
  ∀ (s : State) (note : Notice) (c : Instr) (k : Nat) (bad : Option Nat), s.dataHeld = some note →
    c ∈ [.status, .reset, .setSetting, .saveSettings, .declare k, .seed k bad, .beginService k bad, .openStream, .data,
      .setWeight, .setPacing, .snapshot, .close, .abort k, .mark, .seal k, .readReport, .ackReport, .retime,
      .durable k, .lost k, .free k, .flush k, .queryContainer k, .release, .clearHold, .resetBaseline, .queryBranch] →
    exec c s = .next s

/-- R19, R20, R131: SET WEIGHT, SET PACING and RETIME: a pending weight; a pending period brought into 1 to 10,000; an
interval brought into 10 to 3,600, refused LOCKED while a mark is open. The active weight, the active period and the
pacing counter stay as they are. -/
def Obligations.WeightPacingAndIntervalAreSet : Prop :=
  ∀ (s : State) (r : Request) (rest : List Request), s.Addressed r →
    let sl := s.slot r.stream
    (s.TakesNow .setWeight r rest →
      exec .setWeight s = .next { s with
        slots := (s.setSlot r.stream { sl with pendingWeight := some (field r.payload 0 1) }).slots
        link := s.replied r rest .done .none }) ∧
    (s.TakesNow .setPacing r rest →
      exec .setPacing s = .next { s with
        slots := (s.setSlot r.stream
          { sl with pendingPacing := some (max 1 (min 10000 (field r.payload 0 2))) }).slots
        link :=
          if 1 ≤ field r.payload 0 2 ∧ field r.payload 0 2 ≤ 10000 then s.replied r rest .done (.setPacing false)
          else s.replied r rest .clamped (.setPacing true) }) ∧
    (s.TakesNow .retime r rest → sl.mark.phase ≠ .none →
      exec .retime s = .next { s with link := s.replied r rest (.refused .locked) .none }) ∧
    (s.TakesNow .retime r rest → sl.mark.phase = .none →
      exec .retime s = .next { s with
        slots := (s.setSlot r.stream { sl with interval := some (max 10 (min 3600 (field r.payload 0 2))) }).slots
        link :=
          if 10 ≤ field r.payload 0 2 ∧ field r.payload 0 2 ≤ 3600 then s.replied r rest .done (.retime false)
          else s.replied r rest .clamped (.retime true) })

/-- R15: CLOSE is refused MARK-BUSY, then QUEUE-FULL, and otherwise places an END marker at the next accepted offset
and makes the slot DRAINING.
R17, R111, R18: ABORT discards every entry no lane holds and makes the slot ABORTING; the totals, offsets, mark and
reports stay. With nothing of the stream in a lane or in the lookup queue, the last batch is made at once, with both
flags, or becomes due behind a made batch; at its making an open mark is dropped, its span retired, and every report
is discarded, with any hand-on of the stream that waits (log entry 39). After a FINAL batch no second is made: the
discards come at once, and STREAM CLOSED (ABORTED) follows if that batch has been transmitted (other seals' closes
that can then go on come first: log entry 48). -/
def Obligations.CloseAndAbortEndTheStream : Prop :=
  (∀ (s : State) (r : Request) (rest : List Request), s.TakesNow .close r rest → s.Addressed r →
      let sl := s.slot r.stream
      (sl.mark.phase ≠ .none →
        exec .close s = .next { s with link := s.replied r rest (.refused .markBusy) .none }) ∧
      (sl.mark.phase = .none → 8 ≤ sl.queue.length →
        exec .close s = .next { s with link := s.replied r rest (.refused .queueFull) .none }) ∧
      (sl.mark.phase = .none → sl.queue.length < 8 →
        exec .close s = .next { s with
          slots := (s.setSlot r.stream
            { sl with state := .draining, queue := sl.queue ++ [.endMark sl.nextOffset] }).slots
          link := s.replied r rest .done .none })) ∧
  ∀ (k : Nat) (s : State) (r : Request) (rest : List Request), s.TakesNow .abort r rest → s.Addressed r →
    let n := r.stream
    let sl := s.slot n
    let kept := if s.laneHolds n = true then sl.queue.take 1 else []
    let aborting := { sl with state := .aborting, queue := kept }
    let s' := { s.noteCorrected k with
      link := s.replied r rest .done (.abort (sl.queue.length - kept.length)) }
    (sl.finalMade = false →
      (s.laneHolds n = true ∨ sl.reserved ≠ 0 →
        exec (.abort k) s = .next { s' with slots := (s.setSlot n aborting).slots }) ∧
      (s.laneHolds n = false → sl.reserved = 0 →
        (sl.madeBatch ≠ none →
          exec (.abort k) s = .next { s' with slots := (s.setSlot n { aborting with due := true }).slots }) ∧
        (sl.madeBatch = none → s.NoSealBehind n →
          exec (.abort k) s = .next { s'.discarded n with
            slots := (s.setSlot n (aborting.batchMade true true).reportsDiscarded).slots }))) ∧
    (sl.finalMade = true → s.NoSealBehind n →
      (sl.madeBatch ≠ none ∨ 128 ≤ s.link.notices.length →
        exec (.abort k) s = .next { s'.discarded n with
          slots := (s.setSlot n aborting.reportsDiscarded).slots }) ∧
      ∀ b, sl.madeBatch = none → s.link.notices.length < 128 → sl.branch = some b → s.laneHolds n = false →
        exec (.abort k) s = .next ((s'.discarded n).streamClosed n b aborting))

/-- R16, R18, R10: when a stream's last batch has been transmitted and its report places are empty, STREAM CLOSED enters
the notice queue with the slot's offsets, the slot becomes FREE and the branch unbound; without room the slot stays. A
lane that still stands at the stream's END marker becomes IDLE then, which is the model's reading (log entry 8). -/
def Obligations.StreamClosedFreesTheSlot : Prop :=
  ∀ (s : State) (n b : Nat), s.ctl.dev = .service → s.ctl.pinHeld = false →
    (s.slot n).state = .draining ∨ (s.slot n).state = .aborting → (s.slot n).finalMade = true →
    (s.slot n).madeBatch = none → (s.slot n).reportSlot = none → (s.slot n).waiting = none →
    (s.slot n).heldReport = none → (s.slot n).branch = some b →
    (s.laneHolds n = false → s.link.notices.length < 128 →
      exec (.heldStreamClosedEntry n) s = .next (s.streamClosed n b (s.slot n))) ∧
    (∀ l w, 1 ≤ l → l ≤ 4 → (s.lane l).work = some w → w.slot = n →
      (∀ m, m ≠ l → ∀ w', (s.lane m).work = some w' → w'.slot ≠ n) → s.link.notices.length < 128 →
      exec (.heldStreamClosedEntry n) s = .next { s.streamClosed n b (s.slot n) with
        lanes := (s.setLane l ⟨.idle, none⟩).lanes
        waitOrder := s.waitOrder.filter (fun m => m != l) }) ∧
    (128 ≤ s.link.notices.length → exec (.heldStreamClosedEntry n) s = .next s)

/-! ## Marks and reports -/

/-- R120: MARK is refused MARK-BUSY, SLOT-HELD or QUEUE-FULL, in that order, and otherwise places a MARK marker at the
next accepted offset and opens the mark with its limit of 2 × interval × 1,000 ticks.
R121: SEAL of an open mark stores the expected length and makes it SEALING; a wrong identifier or no mark is refused
NO-MARK and a mark already SEALING BAD-STATE. -/
def Obligations.MarkOpensAndSealStores : Prop :=
  (∀ (s : State) (r : Request) (rest : List Request), s.TakesNow .mark r rest → s.Addressed r →
    let sl := s.slot r.stream
    let busy := sl.mark.phase ≠ .none ∨ s.markerWaits r.stream = true ∨ sl.ended ≠ none
    (busy → exec .mark s = .next { s with link := s.replied r rest (.refused .markBusy) .none }) ∧
    (¬ busy → sl.waiting ≠ none →
      exec .mark s = .next { s with link := s.replied r rest (.refused .slotHeld) .none }) ∧
    (¬ busy → sl.waiting = none → 8 ≤ sl.queue.length →
      exec .mark s = .next { s with link := s.replied r rest (.refused .queueFull) .none }) ∧
    ∀ i, ¬ busy → sl.waiting = none → sl.queue.length < 8 → sl.interval = some i →
      exec .mark s = .next { s with
        slots := (s.setSlot r.stream { sl with
          queue := sl.queue ++ [.mark sl.nextOffset]
          mark := ⟨.open_, some (field r.payload 0 4), some sl.nextOffset, false, none, 0, 2 * i * 1000⟩ }).slots
        link := s.replied r rest .done (.mark sl.nextOffset) }) ∧
  ∀ (k : Nat) (s : State) (r : Request) (rest : List Request), s.TakesNow .seal r rest → s.Addressed r →
    let sl := s.slot r.stream
    let s' := s.noteCorrected k
    (sl.mark.phase = .none ∨ sl.mark.id ≠ some (field r.payload 0 4) →
      exec (.seal k) s = .next { s' with link := s.replied r rest (.refused .noMark) .none }) ∧
    (sl.mark.phase = .sealing → sl.mark.id = some (field r.payload 0 4) →
      exec (.seal k) s = .next { s' with link := s.replied r rest (.refused .badState) .none }) ∧
    (sl.mark.phase = .open_ → sl.mark.id = some (field r.payload 0 4) → sl.mark.cut = false →
      exec (.seal k) s = .next { s' with
        slots := (s.setSlot r.stream { sl with
          mark := { sl.mark with phase := .sealing, sealLen := some (field r.payload 4 6) } }).slots
        link := s.replied r rest .done .none })

/-- R122, R87, R123, R124: a SEAL taken when the marker has been consumed and no lookup is outstanding closes the one
OPEN container of the span's set with CONTAINER FULL of cause SEAL, and the mark waits for it; with an empty set the
mark completes at once and its report, decided TAINTED, MISMATCH or CLEAN in that order, is placed. R96: without room,
or while the placement unit holds another event, the close waits; several OPEN containers are closed one after another,
in the order of log entry 21. -/
def Obligations.SealClosesOrCompletes : Prop :=
  (∀ (k : Nat) (s : State) (r : Request) (rest : List Request), s.TakesNow .seal r rest → s.Addressed r →
    (s.slot r.stream).mark.phase = .open_ → (s.slot r.stream).mark.id = some (field r.payload 0 4) →
    let sl := s.slot r.stream
    let sealed := { sl with mark := { sl.mark with phase := .sealing, sealLen := some (field r.payload 4 6) } }
    ∃ t, exec (.seal k) s = .next t ∧
      State.Settled
        { s.noteCorrected k with
          slots := (s.setSlot r.stream sealed).slots, link := s.replied r rest .done .none } r.stream t) ∧
  ∀ (k : Nat) (s : State) (r : Request) (rest : List Request) (sp : Span), s.TakesNow .seal r rest →
    s.Addressed r → s.ctl.dev = .service → (s.slot r.stream).mark.phase = .open_ →
    (s.slot r.stream).mark.id = some (field r.payload 0 4) → (s.slot r.stream).mark.cut = true →
    (s.slot r.stream).ended = some sp → sp.outstanding = 0 →
    let sl := s.slot r.stream
    let sealed := { sl with mark := { sl.mark with phase := .sealing, sealLen := some (field r.payload 4 6) } }
    let s' := s.noteCorrected k
    (∀ c g, sp.deps = [c] → (s.container c).state = .open_ → (s.container c).group = some g → s.place.held = none →
      s.link.notices.length < 128 →
      exec (.seal k) s = .next { s' with
        slots := (s.setSlot r.stream sealed).slots
        place := { ((s.setContainer c { s.container c with state := .full }).setOpenPlace g none).place with
          nFull := s.place.nFull + 1 }
        link := { s.replied r rest .done .none with
          notices := s.link.notices ++
            [.containerFull c g (s.container c).fill (s.container c).entries .seal] } }) ∧
    (sp.deps = [] →
      ∃ t rep, exec (.seal k) s = .next t ∧ (t.slot r.stream).mark = ⟨.none, none, none, false, none, 0, 0⟩ ∧
        (t.slot r.stream).ended = none ∧
        ((t.slot r.stream).reportSlot = some (rep, 0) ∨ (t.slot r.stream).waiting = some rep ∨
          (t.slot r.stream).heldReport = some rep) ∧
        rep.id = field r.payload 0 4 ∧ rep.expected = some (field r.payload 4 6) ∧ rep.counters = sp.counters ∧
        rep.elapsed = sl.mark.timer ∧ rep.outstanding = 0 ∧ rep.depsLeft = 0 ∧
        t.index = s.index ∧ t.place = s.place ∧ t.lanes = s.lanes ∧ (∀ m, m ≠ r.stream → t.slot m = s.slot m) ∧
        (sp.tainted = true → rep.outcome = .tainted) ∧
        ∀ e, sp.endOff = some e → sp.tainted = false →
          (rep.outcome = .mismatch ↔ sl.lengthCheck = some true ∧ field r.payload 4 6 ≠ e - sp.start) ∧
          (rep.outcome = .clean ↔ ¬ (sl.lengthCheck = some true ∧ field r.payload 4 6 ≠ e - sp.start)) ∧
          rep.lengthMatch = if field r.payload 4 6 = e - sp.start then .matched else .different)

/-- R130, R127, R142: ACK REPORT discards the report in the slot; a waiting report moves in with age 0 and its REPORT
READY, and a CLEAN one is handed on; where the report places are empty after it and the last batch has been transmitted,
STREAM CLOSED follows at once (R16, R18), and a lane still at the END marker becomes IDLE (log entry 8).
R128: without room for the REPORT READY the request is held with nothing changed, and taken when the notice can enter;
that it does not wait then for a hand-on in the mark unit is the model's choice between R128 and R142 (log entry 44).
R128, R127, R142: a held report enters its report slot with age 0 and REPORT READY as room frees, and a CLEAN one is
handed on. -/
def Obligations.ReportsEnterTheirSlots : Prop :=
  (∀ (s : State) (r : Request) (rest : List Request), s.Addressed r →
      let n := r.stream
      let sl := s.slot n
      (s.TakesNow .ackReport r rest → sl.reportSlot = none →
        exec .ackReport s = .next { s with link := s.replied r rest (.refused .noReport) .none }) ∧
      (∀ old age, s.TakesNow .ackReport r rest → sl.reportSlot = some (old, age) → sl.waiting = none →
        let emptied := { s with
          slots := (s.setSlot n { sl with reportSlot := none }).slots
          link := s.replied r rest .done (.ackReport old.id false) }
        let last := (sl.state = .draining ∨ sl.state = .aborting) ∧ sl.finalMade = true ∧ sl.madeBatch = none ∧
          sl.heldReport = none
        (¬ last ∨ 128 ≤ s.link.notices.length → exec .ackReport s = .next emptied) ∧
        ∀ b, last → s.link.notices.length < 128 → sl.branch = some b →
          (s.laneHolds n = false → exec .ackReport s = .next (emptied.streamClosed n b sl)) ∧
          ∀ l w, 1 ≤ l → l ≤ 4 → (s.lane l).work = some w → w.slot = n →
            (∀ m, m ≠ l → ∀ w', (s.lane m).work = some w' → w'.slot ≠ n) →
            exec .ackReport s = .next { emptied.streamClosed n b sl with
              lanes := (s.setLane l ⟨.idle, none⟩).lanes
              waitOrder := s.waitOrder.filter (fun m => m != l) }) ∧
      ∀ old age rep, sl.reportSlot = some (old, age) → sl.waiting = some rep →
        let moved := { s with
          slots := (s.setSlot n { sl with reportSlot := some (rep, 0), waiting := none }).slots
          link := { s.replied r rest .done (.ackReport old.id true) with
            notices := s.link.notices ++ [Notice.reportReady rep.stream rep.branch rep.id rep.outcome] } }
        (s.TakesNow .ackReport r rest → s.link.notices.length < 128 →
          ∃ t, exec .ackReport s = .next t ∧ moved.HandedOn rep t) ∧
        (s.TakesNow .ackReport r rest → 128 ≤ s.link.notices.length →
          exec .ackReport s = .next { s with marks := { s.marks with ackHeld := true } }) ∧
        (s.link.requests = r :: rest → r.kind = .ackReport → s.ctl.pinHeld = false → s.marks.ackHeld = true →
          s.link.notices.length < 128 →
          ∃ t, exec .heldAckReport s = .next t ∧
            State.HandedOn { moved with marks := { s.marks with ackHeld := false } } rep t)) ∧
  (∀ (s : State) (n : Nat) (rep : Report), s.ctl.dev = .service → s.ctl.pinHeld = false →
      (s.slot n).state ≠ .free → (s.slot n).heldReport = some rep → s.link.notices.length < 128 →
      ∃ t, exec (.heldReportEntry n) s = .next t ∧
        State.HandedOn
          { s with
            slots := (s.setSlot n { s.slot n with heldReport := none, reportSlot := some (rep, 0) }).slots
            link := s.link.noticed (.reportReady rep.stream rep.branch rep.id rep.outcome) } rep t)

/-- R126, R125, R115: a mark whose timer reaches its limit ends in VIOLATION: its report is made from the span as it
stands and placed, the span is retired with its set emptied, the mark record returns to NONE, and a seal's close of it
that waits for room is abandoned. That the command is the tick of this one mark and moves nothing else is the model's
reading (log entry 7), and that the report is placed before other seals' closes go on its choice (log entry 48). -/
def Obligations.TimerLimitEndsInViolation : Prop :=
  ∀ (k : Nat) (s : State) (n b id : Nat) (sp : Span), s.ctl.dev = .service → s.ctl.pinHeld = false →
    (s.slot n).mark.phase ≠ .none → (s.slot n).mark.limit ≤ (s.slot n).mark.timer + 1 → (s.slot n).branch = some b →
    (s.slot n).mark.id = some id →
    let sl := s.slot n
    let rep : Report :=
      { stream := n, branch := b, id := id, outcome := .violation, spanNumber := sp.number, start := sp.start,
        endOff := sp.endOff, expected := sl.mark.sealLen,
        lengthMatch :=
          if sp.endOff = none ∨ sl.mark.sealLen = none then .unknown
          else if sl.mark.sealLen.getD 0 = sp.endOff.getD 0 - sp.start then .matched else .different
        counters := sp.counters,
        tainted := sp.tainted, lostDeps := sp.lostDeps, outstanding := sp.outstanding, depsLeft := sp.deps.length,
        elapsed := sl.mark.limit }
    let ended :=
      if sl.mark.cut = true then if sp.outstanding = 0 then none else some { sp with deps := [], retired := true }
      else sl.ended
    let current := if sl.mark.cut = true then sl.current else some { sp with deps := [], retired := true }
    (if sl.mark.cut = true then sl.ended = some sp else sl.current = some sp) →
    let ceased := { sl with mark := ⟨.none, none, none, false, none, 0, 0⟩, current := current, ended := ended }
    ∃ u t, exec (.markTimerLimit n k) s = .next t ∧
      State.Placed { s.noteCorrected k with slots := (s.setSlot n ceased).slots } n rep u ∧ u.SealAbandoned n t

/-! ## Time and verdict batches -/

/-- R104, R125, R127, R113, R133: a tick at which no pacing counter matches and no mark reaches its limit: every
running pacing counter and mark timer rises by 1, every report's age rises and stays at its greatest value, and
nothing else changes; outside SERVICE nothing counts.
R104, R105, R107, R108: at a match the counter clears and a pending period becomes active; with nothing filled nothing
is made, with an empty made-batch place the batch takes every filled verdict, and is the last one where its conditions
hold (R110, R111), and with an occupied one a batch becomes due. That PACING MATCH is the tick of that one counter and
moves nothing else is the model's reading (log entry 7). -/
def Obligations.TicksCountAndMatch : Prop :=
  (∀ (k : Nat) (s : State), s.ctl.dev = .service → s.ctl.pinHeld = false → tableWf Slot.free s.slots = true →
    (∀ n, (s.slot n).state ≠ .free → (s.slot n).finalMade = false →
      (s.slot n).activePacing ≠ some ((s.slot n).pacingCounter + 1)) →
    (∀ n, (s.slot n).mark.phase ≠ .none → (s.slot n).mark.timer + 1 < (s.slot n).mark.limit) →
    ∃ t, exec (.tick k) s = .next t ∧ t = { s.noteCorrected k with slots := t.slots } ∧
      ∀ n, t.slot n = { s.slot n with
        pacingCounter :=
          if (s.slot n).state = .free ∨ (s.slot n).finalMade = true then (s.slot n).pacingCounter
          else (s.slot n).pacingCounter + 1
        mark := { (s.slot n).mark with
          timer :=
            if (s.slot n).mark.phase = .none then (s.slot n).mark.timer else (s.slot n).mark.timer + 1 }
        reportSlot := (s.slot n).reportSlot.map (fun p => (p.1, min 4294967295 (p.2 + 1))) }) ∧
  (∀ (k : Nat) (s : State), s.ctl.dev ≠ .service → exec (.tick k) s = .next s) ∧
  ∀ (k : Nat) (s : State) (n : Nat), s.ctl.dev = .service → s.ctl.pinHeld = false → (s.slot n).state ≠ .free →
    (s.slot n).finalMade = false → (s.slot n).activePacing = some ((s.slot n).pacingCounter + 1) →
    let sl := s.slot n
    let s' := s.noteCorrected k
    let cleared := { sl with
      pacingCounter := 0, activePacing := sl.pendingPacing.elim sl.activePacing (fun p => some p)
      pendingPacing := none }
    (sl.filled = [] → exec (.pacingMatch n k) s = .next { s' with slots := (s.setSlot n cleared).slots }) ∧
    (sl.filled ≠ [] →
      ∃ t, exec (.pacingMatch n k) s = .next t ∧
        State.CallsBatch { s' with slots := (s.setSlot n cleared).slots } n t)

/-! ## The lane scheduler -/

/-- R41: a stream is eligible for a grant exactly when its six conditions hold. -/
def Obligations.EligibleExactlyWhenSixConditionsHold : Prop :=
  ∀ (s : State) (n : Nat), s.eligible n = true ↔
    ((s.slot n).state = .active ∨ (s.slot n).state = .draining) ∧
    (s.slot n).queue ≠ [] ∧
    (∀ p ∈ s.lanes, ∀ w, p.2.work = some w → w.slot ≠ n) ∧
    16 ≤ 64 - ((s.slot n).filled.length + (s.slot n).reserved) ∧
    (∃ sp, (s.slot n).current = some sp ∧ 16 ≤ 32 - sp.deps.length - sp.outstanding) ∧
    ∀ g, s.index.starving = some g → (s.slot n).group ≠ some g

/-- R43, R45, R34: while the frame lasts, the first eligible stream with budget from the start slot upward, wrapping
from 64 to 1, is granted its head entry on the lowest-numbered IDLE lane: one budget unit, one grant counted.
R44, R40, R46, R47: when the present frame has ended, a new one begins before the grant is chosen: pending weights
become active, every budget is set to the active weight, the start slot advances, the count is 0 and the frame length is
read anew; the choice is then made in the new frame. -/
def Obligations.GrantsFollowTheFrames : Prop :=
  (∀ (s : State) (l n : Nat) (e : Entry) (later : List Entry) (x : Ctx) (p : Profile),
      s.ctl.dev = .service → s.ctl.pinHeld = false → s.LowestIdle l → 1 ≤ s.sched.startSlot → s.sched.startSlot ≤ 64 →
      ¬ s.FrameOver → 1 ≤ n → n ≤ 64 → s.eligible n = true → 0 < (s.slot n).budget →
      (∀ m, 1 ≤ m → m ≤ 64 → s.eligible m = true → 0 < (s.slot m).budget →
        (n + 64 - s.sched.startSlot) % 64 ≤ (m + 64 - s.sched.startSlot) % 64) →
      (s.slot n).queue = e :: later → (s.slot n).ctx = some x → (s.slot n).profile = some p →
      exec .grant s = .next { s with
        slots := (s.setSlot n { s.slot n with budget := (s.slot n).budget - 1 }).slots
        sched := { s.sched with grantCount := s.sched.grantCount + 1 }
        lanes := (s.setLane l ⟨.working, some ⟨n, e, match e with | .data _ bytes => bytes | _ => [], p, x, false,
          none⟩⟩).lanes }) ∧
  (∀ (s : State) (l n : Nat), s.ctl.dev = .service → s.ctl.pinHeld = false → s.LowestIdle l → s.FrameOver →
      1 ≤ n → n ≤ 64 → s.eligible n = true → exec .grant s = exec .grant s.newFrame)

/-! ## The lanes -/

/-- R26, R27, R28, R32, R35, R36: a lane with a data entry takes bytes until one passes a test, and submits the chunk
that ends after it as a lookup; the context clears and starts at the next byte. With the lookup queue full the lane
waits with its finished lookup. (That a place owed to a WAITING lane counts as taken is the model's choice, log entry
9.) R36, R35: as a place of the lookup queue frees, the lane that became WAITING first submits its lookup and goes on
with its data entry. -/
def Obligations.CutsBecomeLookups : Prop :=
  (∀ (s : State) (l off : Nat) (bytes pre post : List Byte) (b : Byte) (w : Work) (cut : CutReason) (lk : Lookup),
      s.ctl.dev = .service → s.ctl.pinHeld = false → s.lane l = ⟨.working, some w⟩ → w.entry = .data off bytes →
      w.rest = pre ++ b :: post → NoCut w.profile w.ctx pre →
      cutTest w.profile (w.ctx.taking w.profile (pre ++ [b])) = some cut →
      s.Submits w.slot (w.ctx.taking w.profile (pre ++ [b])) cut lk →
      let x := w.ctx.taking w.profile (pre ++ [b])
      (s.index.lookups.length + s.waitOrder.length < 64 →
        exec (.laneCut l) s = .next { s.joined lk with
          lanes := (s.setLane l ⟨.working, some { w with
            rest := post, ctx := ⟨0, 0, x.start + x.len, []⟩ }⟩).lanes }) ∧
      (64 ≤ s.index.lookups.length + s.waitOrder.length →
        exec (.laneCut l) s = .next { s with
          lanes := (s.setLane l ⟨.waiting, some { w with rest := post, ctx := x, held := some lk }⟩).lanes
          waitOrder := s.waitOrder ++ [l] })) ∧
  (∀ (k : Nat) (s : State) (l off : Nat) (others : List Nat) (bytes : List Byte) (w : Work) (lk : Lookup),
      s.ctl.dev = .service → s.ctl.pinHeld = false → s.waitOrder = l :: others → s.lane l = ⟨.waiting, some w⟩ →
      w.held = some lk → w.entry = .data off bytes → s.index.lookups.length < 64 →
      exec (.laneLookupJoin k) s = .next { (s.joined lk).noteCorrected k with
        waitOrder := others
        lanes := (s.setLane l ⟨.working, some { w with
          ctx := ⟨0, 0, w.ctx.start + w.ctx.len, []⟩, held := none }⟩).lanes })

/-- R27: the tests after a byte, in order: MAX at Lmax, STRICT from Lmin to below Ltgt, LOOSE from Ltgt, and below
Lmin none.
R26: a byte raises the length by 1, makes the hash (2 × H + G[byte]) mod 2^32 and joins the accumulator.
R37, R26, R14: when no further byte cuts, or a marker has been reported, the lane stores the context back, frees the
entry's place, raises the consumed offset for data, and becomes IDLE.
R110, R111, R18: where no lane then holds an ABORTING stream none of whose lookups is left, its last batch is called
for: made at once with both flags, its mark and reports discarded (its waiting hand-on too: log entry 39), or due behind
a made batch. -/
def Obligations.BytesAreTakenUntilTheEntryEnds : Prop :=
  ((∀ (p : Profile) (x : Ctx),
        (x.len = p.lmax → cutTest p x = some .max) ∧
        (x.len ≠ p.lmax → p.lmin ≤ x.len → x.len < p.ltgt → 2 ^ p.ks ∣ x.hash.toNat → cutTest p x = some .strict) ∧
        (x.len ≠ p.lmax → p.ltgt ≤ x.len → 2 ^ p.kl ∣ x.hash.toNat → cutTest p x = some .loose) ∧
        (x.len ≠ p.lmax → x.len < p.ltgt → x.len < p.lmin ∨ ¬ 2 ^ p.ks ∣ x.hash.toNat → cutTest p x = none) ∧
        (x.len ≠ p.lmax → p.ltgt ≤ x.len → ¬ 2 ^ p.kl ∣ x.hash.toNat → cutTest p x = none)) ∧
    (∀ (p : Profile) (x : Ctx) (b : Byte) (seed : Nat), p.gear = gearTable seed →
        (x.take p b).len = x.len + 1 ∧ (x.take p b).start = x.start ∧
        (x.take p b).hash.toNat = (2 * x.hash.toNat + ((b.toNat + 1) * 2654435761 + seed)) % 4294967296 ∧
        (x.take p b).acc.reverse = x.acc.reverse ++ [b])) ∧
  ∀ (k : Nat) (s : State) (l : Nat) (w : Work), s.ctl.dev = .service → s.ctl.pinHeld = false →
    s.lane l = ⟨.working, some w⟩ →
    let finished := fun (x : Ctx) (length : Nat) =>
      { s.slot w.slot with
        ctx := some x
        queue := (s.slot w.slot).queue.drop 1
        consumed := (s.slot w.slot).consumed + length
        totals := { (s.slot w.slot).totals with consumed := (s.slot w.slot).totals.consumed + length } }
    let lets := fun (x : Ctx) (length : Nat) =>
      ∃ t, exec (.laneEntryFinish l k) s = .next t ∧
        State.LastCalled
          { s.noteCorrected k with
            slots := (s.setSlot w.slot (finished x length)).slots
            lanes := (s.setLane l ⟨.idle, none⟩).lanes } w.slot t
    (∀ off bytes, w.entry = .data off bytes → NoCut w.profile w.ctx w.rest →
      lets (w.ctx.taking w.profile w.rest) bytes.length) ∧
    ∀ m, w.entry = .mark m ∨ w.entry = .endMark m → w.markerDone = true → lets w.ctx 0

/-- R30, R31, R115, R126: at a marker the lane submits an open chunk with reason MARK or END, or none when the length
is 0, and reports the marker consumed, whatever the stream's state: at a MARK marker the current span ends at its
offset and the next begins there, setting the cut flag of a mark that is open or sealed, and a retired span without
outstanding lookups is removed. R122, R123: a sealed mark closes its containers or completes then (order: log entry
21).
R110: at an END marker the last batch is called for if no lookup is left.
R36: with the lookup queue full (which counts the places owed to WAITING lanes: log entry 9) the lane waits with its
finished lookup, and reports once that has joined. -/
def Obligations.MarkersAreConsumed : Prop :=
  (∀ (s : State) (l m : Nat) (w : Work), s.ctl.dev = .service → s.ctl.pinHeld = false →
    s.lane l = ⟨.working, some w⟩ → w.markerDone = false → (s.slot w.slot).current ≠ none →
    let room := s.index.lookups.length + s.waitOrder.length < 64
    let waits := fun (s₁ : State) (lk : Lookup) => { s₁ with
      lanes := (s.setLane l ⟨.waiting, some { w with held := some lk }⟩).lanes, waitOrder := s.waitOrder ++ [l] }
    (∀ k, w.entry = .mark m →
      (w.ctx.len = 0 → ∃ t, exec (.laneMarkMarker l k) s = .next t ∧ (s.noteCorrected k).MarkConsumed l w m t) ∧
      ∀ lk, 0 < w.ctx.len → s.Submits w.slot w.ctx .mark lk →
        (room → ∃ t, exec (.laneMarkMarker l k) s = .next t ∧ ((s.joined lk).noteCorrected k).MarkConsumed l w m t) ∧
        (¬ room → exec (.laneMarkMarker l k) s = .next (waits (s.noteCorrected k) lk))) ∧
    (w.entry = .endMark m →
      (w.ctx.len = 0 → ∃ t, exec (.laneEndMarker l) s = .next t ∧ s.EndConsumed l w m t) ∧
      ∀ lk, 0 < w.ctx.len → s.Submits w.slot w.ctx .endCut lk →
        (room → ∃ t, exec (.laneEndMarker l) s = .next t ∧ (s.joined lk).EndConsumed l w m t) ∧
        (¬ room → exec (.laneEndMarker l) s = .next (waits s lk)))) ∧
  ∀ (k : Nat) (s : State) (l m : Nat) (others : List Nat) (w : Work) (lk : Lookup), s.ctl.dev = .service →
    s.ctl.pinHeld = false → s.waitOrder = l :: others → s.lane l = ⟨.waiting, some w⟩ → w.held = some lk →
    s.index.lookups.length < 64 → lk.slot = w.slot → (s.slot w.slot).current ≠ none →
    let freed := { (s.joined lk).noteCorrected k with waitOrder := others }
    (w.entry = .mark m → ∃ t, exec (.laneLookupJoin k) s = .next t ∧ freed.MarkConsumed l w m t) ∧
    (w.entry = .endMark m → ∃ t, exec (.laneLookupJoin k) s = .next t ∧ freed.EndConsumed l w m t)

/-! ## The fingerprint index -/

/-- R63, R72, R73, R99, R62: the port goes to the claiming lookup nearest the head, which becomes READING with its
bucket in flight; a release item that claims goes first once 8 lookups have passed it, or when no lookup claims, and
the count returns to 0, and a lookup that claims goes before it until then; the sweep walker is granted only when
neither claims, with its bucket not in flight and no other operation in progress. What does not claim is not granted,
and the state stays as it is. That a grant made while the head item's
own operation is in progress is not counted is the model's reading (log entry 12), and so is that lookups behind a head
no longer BLOCKED claim before it has applied (log entry 47). -/
def Obligations.PortGrantsInOrder : Prop :=
  ∀ s : State, s.ctl.dev = .service → s.ctl.pinHeld = false →
    (∀ i q, s.LookupClaims i → s.index.lookups[i]? = some q → (∀ j, j < i → ¬ s.LookupClaims j) →
      (∀ it, s.ReleaseClaims it → s.index.passed < 8) →
      exec .lookupPortGrant s = .next { s with index := { s.index with
        lookups := s.index.lookups.set i { q with state := .reading }
        inflight := s.index.inflight ++ [q.lk.bucket]
        passed :=
          match s.index.releases, s.index.other with
          | [], _ => s.index.passed
          | _ :: _, some (.release _) => s.index.passed
          | _ :: _, _ => s.index.passed + 1 } }) ∧
    (∀ it, s.ReleaseClaims it → (∀ j, ¬ s.LookupClaims j) ∨ 8 ≤ s.index.passed →
      exec .releasePortGrant s = .next { s with index := { s.index with
        other := some (.release (bucketOf it.fp)), passed := 0
        inflight := s.index.inflight ++ [bucketOf it.fp] } } ∧
      (8 ≤ s.index.passed → exec .lookupPortGrant s = .next s)) ∧
    ((∃ i, s.LookupClaims i) → s.index.passed < 8 → exec .releasePortGrant s = .next s) ∧
    (s.walker.sweeping = true → s.index.other = none → s.walker.position ∉ s.index.inflight →
      (∀ j, ¬ s.LookupClaims j) → (∀ it, ¬ s.ReleaseClaims it) →
      exec .sweepPortGrant s = .next { s with index := { s.index with
        other := some (.sweep s.walker.position)
        inflight := s.index.inflight ++ [s.walker.position] } }) ∧
    ((∃ i, s.LookupClaims i) ∨ (∃ it, s.ReleaseClaims it) → exec .sweepPortGrant s = .next s) ∧
    (s.walker.sweeping = false ∨ s.index.other ≠ none ∨ s.walker.position ∈ s.index.inflight →
      exec .sweepPortGrant s = .next s) ∧
    ((∀ j, ¬ s.LookupClaims j) → exec .lookupPortGrant s = .next s) ∧
    ((∀ it, ¬ s.ReleaseClaims it) → exec .releasePortGrant s = .next s)

/-- R64, R55, R69, R76, R77: a read that completes makes its lookup READ with the search's result, or, behind a BLOCKED
head, PENDING again with its bucket given up; in FAULT the result is discarded. The search compares the bucket's entries
oldest first, and looks in the spill table only when the spill count is above 0. That a read behind a head no longer
BLOCKED counts is the model's choice (log entry 47). -/
def Obligations.ReadsCompleteWithTheSearch : Prop :=
  (∀ (i k : Nat) (s : State) (q : QLookup), s.index.lookups[i]? = some q → q.state = .reading →
    s.ctl.pinHeld = false →
    (s.ctl.dev = .service → (∀ h, s.index.lookups[0]? = some h → h.state ≠ .blocked) →
      exec (.lookupReadDone i k) s = .next { s.noteCorrected k with index := { s.index with
        lookups := s.index.lookups.set i
          { q with state := .read, result := some (s.search q.lk.bucket q.lk.fp q.lk.length) } } }) ∧
    (∀ h, s.ctl.dev = .service → s.index.lookups[0]? = some h → h.state = .blocked →
      exec (.lookupReadDone i k) s = .next { s.noteCorrected k with index := { s.index with
        lookups := s.index.lookups.set i { q with state := .pending, result := none }
        inflight := s.index.inflight.filter (fun x => x != q.lk.bucket) } }) ∧
    (s.ctl.dev = .fault → exec (.lookupReadDone i k) s = .next (s.noteCorrected k))) ∧
  ∀ (s : State) (b : Nat) (fp : Fp) (len : Nat),
    (∀ pre e post, (s.bucket b).entries = pre ++ e :: post → e.fp = fp → e.length = len →
      (∀ x ∈ pre, ¬ (x.fp = fp ∧ x.length = len)) →
      s.search b fp len = ⟨some (e, false), (s.bucket b).entries.length⟩) ∧
    ((∀ x ∈ (s.bucket b).entries, ¬ (x.fp = fp ∧ x.length = len)) →
      ((s.bucket b).spill = 0 → s.search b fp len = ⟨none, (s.bucket b).entries.length⟩) ∧
      (0 < (s.bucket b).spill →
        s.search b fp len =
          ⟨(s.spillAt fp len).map (fun x => (x.entry, true)), (s.bucket b).entries.length⟩))

/-- R65, R66, R58, R70, R103, R14, R116, R61: an apply that found an entry of a DURABLE, OPEN or FULL container is DUP:
the count rises unless pinned, the container joins a live span's dependency set unless it is DURABLE or there already,
the verdict fills the oldest reserved place, and the lookup leaves the queue; a retired span loses only the outstanding
lookup. R106, R107, R110, R111: the fill calls for a batch at the batch threshold, or for the last one of a DRAINING or
ABORTING stream. R122, R123: then its mark closes or completes (in that order: log entry 40). That a DUP applies while
the placement unit holds an event is the model's reading of R96 (log entry 31). -/
def Obligations.ApplyDecidesDup : Prop :=
  ∀ (k : Nat) (s : State) (q : QLookup) (later : List QLookup) (e : IndexEntry) (inSpill : Bool) (count : Nat),
    s.ctl.dev = .service → s.ctl.pinHeld = false → s.index.lookups = q :: later → q.state = .read →
    q.result = some ⟨some (e, inSpill), count⟩ → s.place.held ≠ some .apply →
    (s.container e.container).state ∈ [.durable, .open_, .full] →
    let st := (s.container e.container).state
    let refs := if e.refs = 65535 then 65535 else e.refs + 1
    let v : Verdict :=
      ⟨q.lk.start, q.lk.length, .dup, q.lk.cut, q.lk.fp, some e.container, some e.offset, some st⟩
    let dep := if st = .durable then none else some e.container
    ∃ t, exec (.lookupApply k) s = .next t ∧
      State.AppliedTo
        { s.noteCorrected k with
          slots := (s.setSlot q.lk.slot ((s.slot q.lk.slot).decided q.lk.span v dep)).slots
          index := { (s.recounted e inSpill q.lk.bucket refs).index with
            lookups := later.mapIdx (fun i x => if i < 16 ∧ x.state = .queued then { x with state := .pending } else x)
            inflight := s.index.inflight.filter (fun x => x != q.lk.bucket)
            starving := none } }
        q.lk.slot t

/-- R68, R82, R83, R56, R54, R70: an apply that found nothing is NEW: the chunk is placed at the fill of its
group's OPEN container when it fits, or at offset 0 of the container at the head of the free list, opened for the
group with the working capacity; its entry with count 1 goes after the bucket's others, or into the spill table when
the bucket is full. With no room in bucket or spill table it is PASS, and nothing is placed or inserted. R106, R107,
R110, R111: the fill calls for a batch at the batch threshold, or for the last one of a DRAINING or ABORTING stream.
R122, R123: then its mark closes or completes (in that order: log entry 40). That a PASS applies while the placement
unit holds another event is the model's reading of R96 (log entry 31). -/
def Obligations.ApplyDecidesNewOrPass : Prop :=
  ∀ (k : Nat) (s : State) (q : QLookup) (later : List QLookup) (count g : Nat),
    s.ctl.dev = .service → s.ctl.pinHeld = false → s.index.lookups = q :: later → q.state = .read →
    q.result = some ⟨none, count⟩ → q.lk.bucket = bucketOf q.lk.fp → (s.slot q.lk.slot).group = some g →
    let n := q.lk.length
    let bk := s.bucket q.lk.bucket
    let popped := { s.index with
      lookups := later.mapIdx (fun i x => if i < 16 ∧ x.state = .queued then { x with state := .pending } else x)
      inflight := s.index.inflight.filter (fun x => x != q.lk.bucket)
      starving := none }
    let inserted := fun e : IndexEntry =>
      if count < 8 then
        { popped with
          entryCount := s.index.entryCount + 1
          buckets := (s.setBucket q.lk.bucket { bk with entries := bk.entries ++ [e] }).index.buckets }
      else
        { popped with
          entryCount := s.index.entryCount + 1
          spillCount := s.index.spillCount + 1
          buckets := (s.setBucket q.lk.bucket { bk with spill := bk.spill + 1 }).index.buckets
          spill := (s.setSpill q.lk.fp n (some ⟨e, q.lk.bucket⟩)).index.spill }
    let decided := fun (v : Verdict) (dep : Option Nat) =>
      (s.setSlot q.lk.slot ((s.slot q.lk.slot).decided q.lk.span v dep)).slots
    let new := fun (c off : Nat) (place : Place) =>
      ∃ t, exec (.lookupApply k) s = .next t ∧
        State.AppliedTo
          { s.noteCorrected k with
            place := place
            index := inserted ⟨q.lk.fp, n, c, off, 1⟩
            slots := decided ⟨q.lk.start, n, .new, q.lk.cut, q.lk.fp, some c, some off, some .open_⟩ (some c) }
          q.lk.slot t
    (s.place.held = none → count < 8 ∨ s.index.spillCount < 65536 →
      (∀ c, s.openPlace g = some c → (s.container c).fill + n ≤ (s.container c).capacity →
        new c (s.container c).fill (s.setContainer c { s.container c with
          fill := (s.container c).fill + n
          entries := (s.container c).entries + 1
          live := (s.container c).live + n }).place) ∧
      ∀ c others, s.openPlace g = none → s.place.freeList = c :: others →
        new c 0 { (((s.setContainer c ⟨.open_, some g, s.ctl.settings.capacityMib * 1048576, n, 1, n⟩).setOpenPlace g
          (some c))).place with freeList := others }) ∧
    (s.place.held ≠ some .apply → 8 ≤ count → 65536 ≤ s.index.spillCount →
      ∃ t, exec (.lookupApply k) s = .next t ∧
        State.AppliedTo
          { s.noteCorrected k with
            index := popped
            slots := decided ⟨q.lk.start, n, .pass, q.lk.cut, q.lk.fp, none, none, none⟩ none }
          q.lk.slot t)

/-- R67, R79, R94, R96, R84: an apply that found an entry of a LOST container removes it, with the accounting of its
container, which becomes FREE with CONTAINER FREED at its last entry, and goes on as a miss whose bucket count is
lowered if the entry stood in the bucket; one whose chunk does not fit the OPEN container of its group closes that
container to FULL with cause SPACE and goes on with none OPEN. While the placement unit holds another event such an
apply waits, and without room for its notice it is held with nothing made. That a removal made stands while the close
after it waits is the model's choice (log entry 45). -/
def Obligations.ApplyClearsTheWayFirst : Prop :=
  ∀ (k : Nat) (s : State) (q : QLookup) (later : List QLookup), s.ctl.dev = .service → s.ctl.pinHeld = false →
    s.index.lookups = q :: later → q.state = .read →
    let held := { s.noteCorrected k with place := { s.place with held := some .apply } }
    (∀ (e : IndexEntry) (inSpill : Bool) (count : Nat), q.result = some ⟨some (e, inSpill), count⟩ →
      (s.container e.container).state = .lost →
      let v := s.container e.container
      let less := { v with entries := v.entries - 1, live := v.live - e.length }
      let dropped := s.entryGone e inSpill q.lk.bucket
      let index := { dropped.index with
        lookups := { q with result := some ⟨none, if inSpill = true then count else count - 1⟩ } :: later }
      (∀ h, s.place.held = some h → h ≠ .apply → exec (.lookupApply k) s = .next (s.noteCorrected k)) ∧
      (s.place.held = none → 1 < v.entries →
        exec (.lookupApply k) s = exec (.lookupApply k)
          { s with index := index, place := (s.setContainer e.container less).place }) ∧
      (s.place.held = none → v.entries = 1 → s.link.notices.length < 128 →
        exec (.lookupApply k) s = exec (.lookupApply k)
          { s with
            index := index
            place := { (s.setContainer e.container ⟨.free, none, 0, 0, 0, 0⟩).place with
              freeList := s.place.freeList ++ [e.container], nLost := s.place.nLost - 1 }
            walker := { s.walker with
              sweeping :=
                match s.index.other with
                | some (.sweep _) => s.walker.sweeping
                | _ => if s.place.nLost ≤ 1 then false else s.walker.sweeping }
            link := s.link.noticed (.containerFreed e.container (v.group.getD 0)) }) ∧
      (s.place.held = none → v.entries = 1 → 128 ≤ s.link.notices.length →
        exec (.lookupApply k) s = .next held)) ∧
    ∀ (count g c : Nat), q.result = some ⟨none, count⟩ → count < 8 ∨ s.index.spillCount < 65536 →
      (s.slot q.lk.slot).group = some g → s.openPlace g = some c → (s.container c).group = some g →
      (s.container c).capacity < (s.container c).fill + q.lk.length →
      (∀ h, s.place.held = some h → h ≠ .apply → exec (.lookupApply k) s = .next (s.noteCorrected k)) ∧
      (s.place.held = none → s.link.notices.length < 128 →
        exec (.lookupApply k) s = exec (.lookupApply k)
          { s with
            place := { ((s.setContainer c { s.container c with state := .full }).setOpenPlace g none).place with
              nFull := s.place.nFull + 1 }
            link := s.link.noticed (.containerFull c g (s.container c).fill (s.container c).entries .space) }) ∧
      (s.place.held = none → 128 ≤ s.link.notices.length → exec (.lookupApply k) s = .next held)

/-- R122, R123, R87, R124, R65, R70: the apply of the last lookup of the span of a sealed, cut mark: a NEW chunk joins
the span's set, and its OPEN container is closed at once with CONTAINER FULL of cause SEAL; a PASS with an empty set
completes the mark, whose report has the counters with that chunk, and one with an OPEN container in the set closes
it. -/
def Obligations.LastApplySettlesTheSeal : Prop :=
  ∀ (k : Nat) (s : State) (q : QLookup) (later : List QLookup) (count th g : Nat) (sp : Span),
    s.ctl.dev = .service → s.ctl.pinHeld = false → s.index.lookups = q :: later → q.state = .read →
    q.result = some ⟨none, count⟩ → s.place.held = none → s.link.notices.length < 128 →
    let n := q.lk.slot
    let sl := s.slot n
    sl.state = .active → sl.mark.phase = .sealing → sl.mark.cut = true → sl.group = some g → sl.threshold = some th →
    sl.filled.length + 1 < th → sl.ended = some sp → sp.number = q.lk.span → sp.outstanding = 1 →
    sp.retired = false → (∀ x, sl.current = some x → x.number ≠ q.lk.span) →
    let len := q.lk.length
    let counted : Counters := { sp.counters with bytes := sp.counters.bytes + len, chunks := sp.counters.chunks + 1 }
    let passed := { counted with
      passChunks := sp.counters.passChunks + 1, passBytes := sp.counters.passBytes + len }
    (∀ c, count < 8 → s.openPlace g = some c → (s.container c).state = .open_ → (s.container c).group = some g →
      (s.container c).fill + len ≤ (s.container c).capacity → sp.deps = [] ∨ sp.deps = [c] →
      ∃ t, exec (.lookupApply k) s = .next t ∧ t.openPlace g = none ∧
        t.container c = { s.container c with
          state := .full, fill := (s.container c).fill + len, entries := (s.container c).entries + 1
          live := (s.container c).live + len } ∧
        t.link = s.link.noticed
          (.containerFull c g ((s.container c).fill + len) ((s.container c).entries + 1) .seal) ∧
        t.place.nFull = s.place.nFull + 1 ∧ t.place.held = none ∧
        (t.slot n).mark = sl.mark ∧ (t.slot n).reserved = sl.reserved - 1 ∧
        (t.slot n).ended = some { sp with
          outstanding := 0, deps := [c]
          counters := { counted with
            newChunks := sp.counters.newChunks + 1, newBytes := sp.counters.newBytes + len } } ∧
        (∀ m, m ≠ n → t.slot m = s.slot m) ∧ (∀ d, d ≠ c → t.container d = s.container d) ∧ t.lanes = s.lanes ∧
        t.monitor = s.monitor) ∧
    (8 ≤ count → 65536 ≤ s.index.spillCount →
      (∀ c, sp.deps = [c] → (s.container c).state = .open_ → (s.container c).group = some g →
        ∃ t, exec (.lookupApply k) s = .next t ∧
          t.place = { ((s.setContainer c { s.container c with state := .full }).setOpenPlace g none).place with
            nFull := s.place.nFull + 1 } ∧
          t.link = s.link.noticed
            (.containerFull c g (s.container c).fill (s.container c).entries .seal) ∧
          (t.slot n).mark = sl.mark ∧
          (t.slot n).ended = some { sp with outstanding := 0, counters := passed } ∧
          (∀ m, m ≠ n → t.slot m = s.slot m) ∧ t.lanes = s.lanes ∧ t.monitor = s.monitor) ∧
      (sp.deps = [] → ∀ e x id, sp.endOff = some e → sl.mark.sealLen = some x → sl.mark.id = some id →
        ∃ t rep, exec (.lookupApply k) s = .next t ∧ (t.slot n).ended = none ∧
          (t.slot n).mark = ⟨.none, none, none, false, none, 0, 0⟩ ∧
          ((t.slot n).reportSlot = some (rep, 0) ∨ (t.slot n).waiting = some rep) ∧
          (t.slot n).reserved = sl.reserved - 1 ∧ rep.counters = passed ∧ rep.id = id ∧ rep.stream = n ∧
          rep.start = sp.start ∧ rep.endOff = some e ∧ rep.expected = some x ∧ rep.outstanding = 0 ∧
          rep.depsLeft = 0 ∧ rep.elapsed = sl.mark.timer ∧
          rep.outcome =
            (if sp.tainted = true then .tainted
             else if sl.lengthCheck = some true ∧ x ≠ e - sp.start then .mismatch else .clean) ∧
          t.place = s.place ∧ (∀ m, m ≠ n → t.slot m = s.slot m) ∧ t.lanes = s.lanes ∧
          s.link.notices ++ (if sl.reportSlot = none then [.reportReady n rep.branch id rep.outcome] else []) <+:
            t.link.notices))

/-- R69, R82, R85, R42: with no OPEN container and an empty free list the head becomes BLOCKED: it and the READ lookups
behind it give up their buckets, its group is placement-blocked, and one STARVED notice begins the episode, held by the
placement unit while the notice queue is full (R96); none is made while the episode lasts. -/
def Obligations.NoContainerBlocksTheHead : Prop :=
  ∀ (k : Nat) (s : State) (q : QLookup) (later : List QLookup) (count g : Nat), s.ctl.dev = .service →
    s.ctl.pinHeld = false → s.index.lookups = q :: later → q.state = .read → q.result = some ⟨none, count⟩ →
    count < 8 → s.place.held = none → (s.slot q.lk.slot).group = some g → s.openPlace g = none →
    s.place.freeList = [] →
    let blocked := { s.noteCorrected k with index := { s.index with
      lookups := { q with state := .blocked, result := none } ::
        later.map (fun x => if x.state = .read then { x with state := .pending, result := none } else x)
      inflight := s.index.inflight.filter (fun b =>
        !((q :: later.filter (fun x => x.state == .read)).map (fun x => x.lk.bucket)).contains b)
      starving := some g } }
    (s.index.starving = none → s.link.notices.length < 128 →
      exec (.lookupApply k) s = .next { blocked with
        link := s.link.noticed
          (.starved g q.lk.slot q.lk.length s.place.nFull s.place.nReclaimable s.place.nLost) }) ∧
    (s.index.starving = none → 128 ≤ s.link.notices.length →
      exec (.lookupApply k) s = .next { blocked with place := { s.place with held := some .starved } }) ∧
    (s.index.starving ≠ none → exec (.lookupApply k) s = .next blocked)

/-- R138, R139, R140, R137, R91, R57, R72, R73: the operation of the release item at the head: missed when the entry
is absent or its container LOST, found with the count kept when pinned, lowered when above 1, and removed at 1, which
counts it freed and makes a DURABLE container RECLAIMABLE at its last entry; an OPEN or FULL one keeps its state. The
item leaves the queue with its operation; after the last of its RELEASE, RELEASE COMPLETE carries the counts, or waits
with the tally kept and the queue standing, and enters as room frees; the next items that cannot name an entry are
counted missed at the head. -/
def Obligations.ReleaseOperationActsOnTheEntry : Prop :=
  (∀ (k : Nat) (s : State) (it : ReleaseItem) (later : List ReleaseItem) (t : Tally), s.ctl.dev = .service →
    s.ctl.pinHeld = false → s.index.other = some (.release (bucketOf it.fp)) → s.index.releases = it :: later →
    s.index.tally = some t → s.place.held = none →
    let b := bucketOf it.fp
    let br := s.branch it.branch
    let hit := { br with relFound := min 4294967295 (br.relFound + 1) }
    let miss := { br with relMissed := min 4294967295 (br.relMissed + 1) }
    let finished := fun (s₁ : State) (f fr m : Nat) (br' : Branch) (first : List Notice) =>
      ∃ u, exec (.releaseOpDone k) s = .next u ∧
        State.ReleasesGoOn
          (State.releaseEnded
            { s₁.noteCorrected k with
              index := { s₁.index with
                other := none, inflight := s.index.inflight.filter (fun x => x != b)
                tally := some ⟨t.tag, t.branch, f, fr, m⟩ }
              monitor := (s.setBranch it.branch br').monitor
              link := { s.link with notices := s.link.notices ++ first } } it.last)
          later u
    ((s.search b it.fp it.length).found = none → finished s t.found t.freed (t.missed + 1) miss []) ∧
    ∀ e inSpill, (s.search b it.fp it.length).found = some (e, inSpill) →
      let c := s.container e.container
      let less := { c with entries := c.entries - 1, live := c.live - e.length }
      (c.state = .lost → finished s t.found t.freed (t.missed + 1) miss []) ∧
      (c.state ≠ .lost → e.refs = 65535 → finished s (t.found + 1) t.freed t.missed hit []) ∧
      (c.state ≠ .lost → 1 < e.refs → e.refs ≠ 65535 →
        finished (s.recounted e inSpill b (e.refs - 1)) (t.found + 1) t.freed t.missed hit []) ∧
      (c.state ≠ .lost → e.refs = 1 → 1 < c.entries ∨ c.state = .open_ ∨ c.state = .full →
        finished { s.entryGone e inSpill b with place := (s.setContainer e.container less).place }
          (t.found + 1) (t.freed + 1) t.missed hit []) ∧
      (c.state = .durable → e.refs = 1 → c.entries = 1 → s.link.notices.length < 128 →
        finished { s.entryGone e inSpill b with
          place := { (s.setContainer e.container { less with state := .reclaimable }).place with
            nReclaimable := s.place.nReclaimable + 1 } }
          (t.found + 1) (t.freed + 1) t.missed hit
          [.containerReclaimable e.container (c.group.getD 0) c.fill]) ∧
      (c.state = .durable → e.refs = 1 → c.entries = 1 → 128 ≤ s.link.notices.length →
        exec (.releaseOpDone k) s =
          .next { s.noteCorrected k with place := { s.place with held := some .release } })) ∧
  ∀ (s : State) (t : Tally), s.ctl.dev = .service → s.ctl.pinHeld = false → s.index.completeHeld = true →
    s.index.tally = some t → s.link.notices.length < 128 →
    ∃ u, exec .heldReleaseCompleteEntry s = .next u ∧
      State.ReleasesGoOn
        { s with
          index := { s.index with tally := none, completeHeld := false }
          link := s.link.noticed (.releaseComplete t.tag t.branch t.found t.freed t.missed) }
        s.index.releases u

/-- R99, R100, R94, R79, R57, R59: a sweep operation removes the entries of LOST containers from its bucket and, where
the spill count is above 0, the bucket's from the spill table, and leaves the others; each such container's entry
count and live bytes fall, and one left without entries becomes FREE with CONTAINER FREED and joins the free list. The
position advances, from 4,194,303 to 0, and the walker's run ends when no container is LOST. The order in which
several containers become FREE is the model's choice (log entry 41). -/
def Obligations.SweepRemovesLostEntries : Prop :=
  ∀ (k : Nat) (s : State), s.ctl.dev = .service → s.ctl.pinHeld = false → s.place.held = none → s.Canonical →
    ∀ b, s.index.other = some (.sweep b) →
    let lost := fun e : IndexEntry => decide ((s.container e.container).state = .lost)
    let spilled := fun x : SpillEntry => x.bucket == b && decide (0 < (s.bucket b).spill)
    let inBucket := (s.bucket b).entries.filter lost
    let inSpill := (s.index.spill.filterMap (fun p => p.2)).filter (fun x => spilled x && lost x.entry)
    let gone := inBucket ++ inSpill.map SpillEntry.entry
    let of := fun c : Nat => gone.filter (fun e => e.container == c)
    let freed := ((gone.map IndexEntry.container).dedup).filter
      (fun c => decide ((of c).length = (s.container c).entries))
    (∀ c, (s.container c).state = .lost → (of c).length ≤ (s.container c).entries) →
    freed.length ≤ s.place.nLost → s.link.notices.length + freed.length ≤ 128 →
    ∃ t, exec (.sweepOpDone k) s = .next t ∧
      t.bucket b = ⟨(s.bucket b).entries.filter (fun e => !lost e), (s.bucket b).spill - inSpill.length⟩ ∧
      (∀ x, x ≠ b → t.bucket x = s.bucket x) ∧
      t.index.spill = s.index.spill.filter (fun p => !p.2.any (fun x => spilled x && lost x.entry)) ∧
      t.index.entryCount = s.index.entryCount - gone.length ∧ t.index.spillCount = s.index.spillCount - inSpill.length ∧
      (∀ c, t.container c =
        if c ∈ freed then ⟨.free, none, 0, 0, 0, 0⟩
        else { s.container c with
          entries := (s.container c).entries - (of c).length
          live := (s.container c).live - ((of c).map IndexEntry.length).sum }) ∧
      t.place.freeList = s.place.freeList ++ freed ∧ t.place.nLost = s.place.nLost - freed.length ∧
      t.link.notices = s.link.notices ++ freed.map (fun c => .containerFreed c ((s.container c).group.getD 0)) ∧
      t.index.other = none ∧ t.index.inflight = s.index.inflight.filter (fun x => x != b) ∧
      t.walker = ⟨if s.place.nLost = freed.length then false else s.walker.sweeping,
        (s.walker.position + 1) % 4194304⟩ ∧
      t.slots = s.slots ∧ t.lanes = s.lanes ∧ t.monitor = s.monitor ∧ t.place.held = none

/-! ## Containers -/

/-- R90, R117, R80: DURABLE of a FULL container makes it DURABLE, takes it out of every live dependency set, and, when
no entry names it, takes it on to RECLAIMABLE with its notice; a container in another state is refused BAD-STATE, and so
is the request outside SERVICE (R165); without room for the notice the placement unit holds the request (R96). R122,
R123: then the marks whose conditions hold close or complete (the order of the slots is log entry 21; that
the container's own notice enters first is log entry 48). -/
def Obligations.DurableTakesTheContainerOutOfEverySet : Prop :=
  ∀ (k : Nat) (s : State) (r : Request) (rest : List Request), s.TakesNow .durable r rest →
    let c := field r.payload 0 2
    let v := s.container c
    let dropped := s.slots.map (fun p => (p.1, p.2.mapSpans (Span.dropDep c)))
    let s' := s.noteCorrected k
    (s.ctl.dev ≠ .service ∨ v.state ≠ .full →
      exec (.durable k) s = .next { s' with link := s.replied r rest (.refused .badState) .none }) ∧
    (s.ctl.dev = .service → v.state = .full →
      (v.entries ≠ 0 →
        ∃ t, exec (.durable k) s = .next t ∧
          State.ThenSettles
            { s' with
              slots := dropped
              place := { (s.setContainer c { v with state := .durable }).place with nFull := s.place.nFull - 1 }
              link := s.replied r rest .done (.durable .durable (s.spansHolding c)) } t) ∧
      (v.entries = 0 → s.link.notices.length < 128 →
        ∃ t, exec (.durable k) s = .next t ∧
          State.ThenSettles
            { s' with
              slots := dropped
              place := { (s.setContainer c { v with state := .reclaimable }).place with
                nFull := s.place.nFull - 1, nReclaimable := s.place.nReclaimable + 1 }
              link := { s.replied r rest .done (.durable .reclaimable (s.spansHolding c)) with
                notices := s.link.notices ++ [.containerReclaimable c (v.group.getD 0) v.fill] } } t) ∧
      (v.entries = 0 → 128 ≤ s.link.notices.length →
        exec (.durable k) s = .next { s' with place := { s.place with held := some .request } })) ∧
    (∀ sp : Span, Span.dropDep c sp =
      if sp.retired = false ∧ c ∈ sp.deps then { sp with deps := sp.deps.filter (fun d => d != c) } else sp) ∧
    ∀ t, exec (.durable k) s = .next t → s.ctl.dev = .service → v.state = .full → v.entries ≠ 0 →
      (∀ n, (s.slot n).mark.phase ≠ .sealing) → t.spansHolding c = 0

/-- R123, R124, R127, R142, R90: the DURABLE of the last container in the set of a sealed mark whose cut is made and
whose lookups have applied completes the mark: the span is removed, the record returns to NONE, and its report enters
the empty report slot with age 0 and REPORT READY. (Span.dropDep, of the other streams' sets, is spelled in
DurableTakesTheContainerOutOfEverySet.) -/
def Obligations.DurableCompletesTheCheckpoint : Prop :=
  ∀ (k : Nat) (s : State) (r : Request) (rest : List Request) (n id x e : Nat) (sp : Span),
    s.TakesNow .durable r rest → s.ctl.dev = .service → (∀ m, m ≠ n → (s.slot m).mark.phase ≠ .sealing) →
    (s.container (field r.payload 0 2)).state = .full → (s.container (field r.payload 0 2)).entries ≠ 0 →
    (s.slot n).mark.phase = .sealing → (s.slot n).mark.cut = true → (s.slot n).mark.id = some id →
    (s.slot n).mark.sealLen = some x → (s.slot n).ended = some sp → sp.endOff = some e → sp.retired = false →
    sp.outstanding = 0 → sp.deps = [field r.payload 0 2] → (s.slot n).reportSlot = none →
    s.link.notices.length < 128 →
    ∃ t rep, exec (.durable k) s = .next t ∧ (t.slot n).reportSlot = some (rep, 0) ∧ (t.slot n).ended = none ∧
      (t.slot n).mark = ⟨.none, none, none, false, none, 0, 0⟩ ∧
      (t.slot n).queue = (s.slot n).queue ∧ (t.slot n).filled = (s.slot n).filled ∧
      rep.stream = n ∧ rep.id = id ∧ rep.start = sp.start ∧ rep.endOff = some e ∧ rep.expected = some x ∧
      rep.counters = sp.counters ∧ rep.elapsed = (s.slot n).mark.timer ∧ rep.tainted = sp.tainted ∧
      rep.outcome =
        (if sp.tainted = true then .tainted
         else if (s.slot n).lengthCheck = some true ∧ x ≠ e - sp.start then .mismatch else .clean) ∧
      t.link.requests = rest ∧ t.index = s.index ∧ t.lanes = s.lanes ∧
      (∀ m, m ≠ n → t.slot m = (s.slot m).mapSpans (Span.dropDep (field r.payload 0 2))) ∧
      s.link.notices ++ [.reportReady n rep.branch id rep.outcome] <+: t.link.notices

/-- R93, R118, R94, R98, R80: LOST of a FULL or DURABLE container taints every live span that holds it, takes it out of
their sets, and starts the sweep walker, or, when no entry names it, frees it at once with CONTAINER FREED; any other
state is refused BAD-STATE, and so is the request outside SERVICE (R165); without room for the notice the placement unit
holds the request (R96). R122, R123: then the marks whose conditions hold close or complete (the order of the slots is
log entry 21; that the container's own notice enters first is log entry 48).
R123, R124: the LOST of the last container in the set of a sealed mark whose cut is made and whose lookups have applied
completes the mark as TAINTED, and its report enters the empty report slot with REPORT READY. -/
def Obligations.LostTaintsItsSpans : Prop :=
  (∀ (k : Nat) (s : State) (r : Request) (rest : List Request), s.TakesNow .lost r rest →
    let c := field r.payload 0 2
    let v := s.container c
    let tainted := s.slots.map (fun p => (p.1, p.2.mapSpans (Span.taintDep c)))
    let s' := s.noteCorrected k
    let nFull := if v.state = .full then s.place.nFull - 1 else s.place.nFull
    (s.ctl.dev ≠ .service ∨ v.state ≠ .full ∧ v.state ≠ .durable →
      exec (.lost k) s = .next { s' with link := s.replied r rest (.refused .badState) .none }) ∧
    (s.ctl.dev = .service → v.state = .full ∨ v.state = .durable →
      (v.entries ≠ 0 →
        ∃ t, exec (.lost k) s = .next t ∧
          State.ThenSettles
            { s' with
              slots := tainted
              place := { (s.setContainer c { v with state := .lost }).place with
                nFull := nFull, nLost := s.place.nLost + 1 }
              walker := { s.walker with sweeping := true }
              link := s.replied r rest .done (.lost .lost (s.spansHolding c)) } t) ∧
      (v.entries = 0 → s.link.notices.length < 128 →
        ∃ t, exec (.lost k) s = .next t ∧
          State.ThenSettles
            { s' with
              slots := tainted
              place := { (s.setContainer c ⟨.free, none, 0, 0, 0, 0⟩).place with
                freeList := s.place.freeList ++ [c], nFull := nFull }
              walker := { s.walker with
                sweeping :=
                  match s.index.other with
                  | some (.sweep _) => s.walker.sweeping
                  | _ => if s.place.nLost = 0 then false else s.walker.sweeping }
              index := { s.index with
                lookups :=
                  match s.index.lookups with
                  | q :: later => (if q.state = .blocked then { q with state := .pending } else q) :: later
                  | [] => [] }
              link := { s.replied r rest .done (.lost .free (s.spansHolding c)) with
                notices := s.link.notices ++ [.containerFreed c (v.group.getD 0)] } } t) ∧
      (v.entries = 0 → 128 ≤ s.link.notices.length →
        exec (.lost k) s = .next { s' with place := { s.place with held := some .request } })) ∧
    ∀ (sp : Span), (Span.taintDep c sp) =
      if sp.retired = false ∧ c ∈ sp.deps then
        { sp with
          deps := sp.deps.filter (fun d => d != c), tainted := true, lostDeps := min 65535 (sp.lostDeps + 1) }
      else sp) ∧
  ∀ (k : Nat) (s : State) (r : Request) (rest : List Request) (n id : Nat) (sp : Span),
    s.TakesNow .lost r rest → s.ctl.dev = .service → (∀ m, m ≠ n → (s.slot m).mark.phase ≠ .sealing) →
    (s.container (field r.payload 0 2)).state = .full → (s.container (field r.payload 0 2)).entries ≠ 0 →
    (s.slot n).mark.phase = .sealing → (s.slot n).mark.cut = true → (s.slot n).mark.id = some id →
    (s.slot n).ended = some sp → sp.retired = false → sp.outstanding = 0 → sp.deps = [field r.payload 0 2] →
    (s.slot n).reportSlot = none → s.link.notices.length < 128 →
    ∃ t rep, exec (.lost k) s = .next t ∧ (t.slot n).reportSlot = some (rep, 0) ∧ (t.slot n).ended = none ∧
      (t.slot n).mark = ⟨.none, none, none, false, none, 0, 0⟩ ∧
      rep.stream = n ∧ rep.id = id ∧ rep.outcome = .tainted ∧ rep.tainted = true ∧
      rep.lostDeps = min 65535 (sp.lostDeps + 1) ∧ rep.counters = sp.counters ∧ rep.outstanding = 0 ∧
      rep.depsLeft = 0 ∧ rep.elapsed = (s.slot n).mark.timer ∧
      t.container (field r.payload 0 2) = { s.container (field r.payload 0 2) with state := .lost } ∧
      t.monitor = s.monitor ∧ t.link.requests = rest ∧
      t.link.notices = s.link.notices ++ [.reportReady n rep.branch id .tainted]

/-- R92, R86, R89, R69, R80: FREE of a RECLAIMABLE container clears its record and puts its number at the tail of the
free list, which makes a BLOCKED head PENDING; FLUSH closes its group's OPEN container with CONTAINER FULL of cause
FLUSH, or is held by the placement unit without room. Each is refused as its rule gives, and BAD-STATE outside SERVICE
(R165).
R96, R85: as room frees the held event goes on: an apply, a release or a sweep operation, or a DURABLE, LOST or FLUSH
request as if nothing were held, and a held seal's close; a STARVED notice enters and the placement unit is free. R122:
then the seals' closes that wait behind it go on (the order of the slots is log entry 21; what a held sweep operation
had done before stands: log entry 45).
R12, R96, R156: a container request is held only in SERVICE, at the head of the request queue, with no DATA REFUSED held
behind which it would wait: so it is at reset, and every step keeps it. -/
def Obligations.FreeAndFlushActAndHeldEventsGoOn : Prop :=
  (∀ (k : Nat) (s : State) (r : Request) (rest : List Request),
    let s' := s.noteCorrected k
    let refused := fun reason : Reason => { s' with link := s.replied r rest (.refused reason) .none }
    (s.ctl.dev ≠ .service →
      (s.TakesNow .free r rest → exec (.free k) s = .next (refused .badState)) ∧
      (s.TakesNow .flush r rest → exec (.flush k) s = .next (refused .badState))) ∧
    (s.ctl.dev = .service → s.TakesNow .free r rest →
      let c := field r.payload 0 2
      ((s.container c).state ≠ .reclaimable → exec (.free k) s = .next (refused .badState)) ∧
      ((s.container c).state = .reclaimable →
        exec (.free k) s = .next { s' with
          place := { (s.setContainer c ⟨.free, none, 0, 0, 0, 0⟩).place with
            freeList := s.place.freeList ++ [c], nReclaimable := s.place.nReclaimable - 1 }
          index := { s.index with
            lookups :=
              match s.index.lookups with
              | q :: later => (if q.state = .blocked then { q with state := .pending } else q) :: later
              | [] => [] }
          link := s.replied r rest .done (.free (s.place.freeList.length + 1)) })) ∧
    (s.ctl.dev = .service → s.TakesNow .flush r rest →
      let g := field r.payload 0 1
      (7 < g → exec (.flush k) s = .next (refused .range)) ∧
      (g ≤ 7 → s.openPlace g = none → exec (.flush k) s = .next (refused .noContainer)) ∧
      (∀ c, g ≤ 7 → s.openPlace g = some c → (s.container c).group = some g → s.link.notices.length < 128 →
        exec (.flush k) s = .next { s' with
          place := { ((s.setContainer c { s.container c with state := .full }).setOpenPlace g none).place with
            nFull := s.place.nFull + 1 }
          link := { s.replied r rest .done (.flush c (s.container c).fill (s.container c).entries) with
            notices := s.link.notices ++
              [.containerFull c g (s.container c).fill (s.container c).entries .flush] } }) ∧
      ∀ c, g ≤ 7 → s.openPlace g = some c → 128 ≤ s.link.notices.length →
        exec (.flush k) s = .next { s' with place := { s.place with held := some .request } })) ∧
  (∀ (k : Nat) (s : State), s.ctl.dev = .service → s.ctl.pinHeld = false → s.link.notices.length < 128 →
    let unheld := { s with place := { s.place with held := none } }
    let asIf := fun c : Instr =>
      ∃ u t, exec c unheld = .next u ∧ exec (.heldContainerNoticeEntry k none) s = .next t ∧ u.ThenSettles t
    (s.place.held = some .apply → (∃ q later, s.index.lookups = q :: later ∧ q.state = .read) →
      asIf (.lookupApply k)) ∧
    (∀ b, s.place.held = some .release → s.index.other = some (.release b) → asIf (.releaseOpDone k)) ∧
    (∀ b, s.place.held = some .sweep → s.index.other = some (.sweep b) → asIf (.sweepOpDone k)) ∧
    (∀ r rest, s.place.held = some .request → s.dataHeld = none → s.link.requests = r :: rest →
      (r.kind = .durable → asIf (.durable k)) ∧ (r.kind = .lost → asIf (.lost k)) ∧
      (r.kind = .flush → asIf (.flush k))) ∧
    (∀ n, s.place.held = some (.seal n) →
      ∃ u t, State.Settled (unheld.noteCorrected k) n u ∧
        exec (.heldContainerNoticeEntry k none) s = .next t ∧ u.ThenSettles t) ∧
    ∀ q later g, s.place.held = some .starved → s.index.lookups = q :: later → (s.slot q.lk.slot).group = some g →
      ∃ t, exec (.heldContainerNoticeEntry k none) s = .next t ∧
        State.ThenSettles
          { unheld.noteCorrected k with
            link := s.link.noticed
              (.starved g q.lk.slot q.lk.length s.place.nFull s.place.nReclaimable s.place.nLost) } t) ∧
  State.reset.HeldRequestAtHead ∧ ∀ s t : State, s.HeldRequestAtHead → step s = .next t → t.HeldRequestAtHead

/-! ## Releases and the branch monitor -/

/-- R142, R143, R144, R145, R146: a CLEAN report of enough bytes that enters its slot raises its branch's totals and
gives a sample: COLD, the running average and the cold count; HOT, a surge above the baseline plus the margin, with
the hold, the surges total and SURGE, or the baseline an eighth of the way. A held SURGE sets the hold as it enters,
and then the hand-ons that wait are taken one at a time, in whatever order their streams are named (log entry 22), until
one makes a SURGE that is held in its turn (what of it rises at once is log entry 18). -/
def Obligations.CleanReportsAreSampled : Prop :=
  (∀ (s : State) (n : Nat) (rep : Report), s.ctl.dev = .service → s.ctl.pinHeld = false → (s.slot n).state ≠ .free →
    (s.slot n).heldReport = some rep → s.link.notices.length < 127 → rep.outcome = .clean →
    s.monitor.surgeHeld = none → s.marks.handOns = [] →
    let bytes := rep.counters.bytes
    let fresh := rep.counters.newBytes + rep.counters.passBytes
    let sample := fresh * 1024 / bytes
    let b := s.branch rep.branch
    let fed := { b with
      bytesIn := min (2 ^ 64 - 1) (b.bytesIn + bytes), newBytes := min (2 ^ 64 - 1) (b.newBytes + fresh) }
    let sampled := { fed with cleanSamples := min 4294967295 (b.cleanSamples + 1) }
    let entered := fun (b' : Branch) (more : List Notice) =>
      exec (.heldReportEntry n) s = .next { s with
        slots := (s.setSlot n { s.slot n with heldReport := none, reportSlot := some (rep, 0) }).slots
        monitor := (s.setBranch rep.branch b').monitor
        link := { s.link with
          notices := s.link.notices ++ [.reportReady rep.stream rep.branch rep.id .clean] ++ more } }
    (bytes < s.ctl.settings.minSampleMib * 1048576 → entered fed []) ∧
    (s.ctl.settings.minSampleMib * 1048576 ≤ bytes →
      (b.phase = .cold → b.cold < 3 →
        entered { sampled with baseline := (b.baseline * b.cold + sample) / (b.cold + 1), cold := b.cold + 1 } []) ∧
      (b.phase = .cold → b.cold = 3 →
        entered { sampled with baseline := (b.baseline * 3 + sample) / 4, cold := 0, phase := .hot } []) ∧
      ∀ m, b.phase = .hot → b.margin = some m →
        (sample ≤ b.baseline + m → entered { sampled with baseline := (7 * b.baseline + sample) / 8 } []) ∧
        (b.baseline + m < sample →
          entered { sampled with hold := true, surges := min 4294967295 (b.surges + 1) }
            [.surge rep.branch sample b.baseline m]))) ∧
  ∀ (order : List Nat) (s : State) (g : Surge), s.ctl.dev = .service → s.ctl.pinHeld = false →
    s.monitor.surgeHeld = some g → s.link.notices.length < 128 →
    let entered :=
      { s with
        marks := { s.marks with handOns := [] }
        monitor :=
          { surgeHeld := none
            branches := (s.setBranch g.branch
              { s.branch g.branch with
                hold := true, surges := min 4294967295 ((s.branch g.branch).surges + 1) }).monitor.branches }
        link := s.link.noticed (.surge g.branch g.sample g.baseline g.margin) }
    (s.marks.handOns = [] → exec (.heldSurgeEntry order) s = .next entered) ∧
    (∃ hs t, hs.Perm s.marks.handOns ∧ exec (.heldSurgeEntry order) s = .next t ∧ entered.HandOnsTaken hs t) ∧
    ∀ hs : List HandOn, hs.Perm s.marks.handOns → (hs.map HandOn.stream).Nodup → order = hs.map HandOn.stream →
      ∃ t, exec (.heldSurgeEntry order) s = .next t ∧ entered.HandOnsTaken hs t

/-- R136, R137, R139, R140: RELEASE is refused BAD-STATE outside SERVICE (R135, R165), and RANGE, HELD or QUEUE-FULL,
in that order, with nothing queued, and otherwise puts all its items at the tail of the release queue. The head of the
queue begins its RELEASE's tally; items at the head whose length is 0 or above 65,536 are counted missed at once
without the port, and RELEASE COMPLETE follows the last of a RELEASE. -/
def Obligations.ReleaseQueuesAllOrNothing : Prop :=
  ∀ (s : State) (r : Request) (rest : List Request), s.TakesNow .release r rest →
    let branch := field r.payload 0 1
    let count := field r.payload 1 1
    (s.ctl.dev ≠ .service →
      exec .release s = .next { s with link := s.replied r rest (.refused .badState) .none }) ∧
    (s.ctl.dev = .service → count = 0 ∨ 64 < count →
      exec .release s = .next { s with link := s.replied r rest (.refused .range) .none }) ∧
    (s.ctl.dev = .service → 1 ≤ count → count ≤ 64 →
      ((s.branch branch).hold = true →
        exec .release s = .next { s with link := s.replied r rest (.refused .held) .none }) ∧
      ((s.branch branch).hold = false → 256 < s.index.releases.length + count →
        exec .release s = .next { s with link := s.replied r rest (.refused .queueFull) .none }) ∧
      ((s.branch branch).hold = false → s.index.releases.length + count ≤ 256 →
        ∃ t, exec .release s = .next t ∧
          State.ReleasesGoOn { s with link := s.replied r rest .done (.release count) }
            (s.index.releases ++ releaseItems branch r.tag count (r.payload.drop 2)) t))

/-- R147, R148: CLEAR HOLD clears the branch's hold flag and reports it as it stood; RESET BASELINE returns every branch
named to COLD with cold count 0 and baseline 0, leaving its hold, margin, bound stream and totals, and is refused RANGE
for an empty list or a branch named twice. R135, R165: outside SERVICE both are refused BAD-STATE. -/
def Obligations.HoldsAndBaselinesAreReset : Prop :=
  ∀ (s : State) (r : Request) (rest : List Request),
    (s.ctl.dev ≠ .service → ∀ c kind, (c, kind) ∈ [(Instr.clearHold, ReqKind.clearHold),
        (Instr.resetBaseline, ReqKind.resetBaseline)] → s.TakesNow kind r rest →
      exec c s = .next { s with link := s.replied r rest (.refused .badState) .none }) ∧
    (s.ctl.dev = .service → s.TakesNow .clearHold r rest →
      exec .clearHold s = .next { s with
        monitor := (s.setBranch (field r.payload 0 1)
          { s.branch (field r.payload 0 1) with hold := false }).monitor
        link := s.replied r rest .done (.clearHold (s.branch (field r.payload 0 1)).hold) }) ∧
    (s.ctl.dev = .service → s.TakesNow .resetBaseline r rest →
      let names := (r.payload.drop 2).map (fun b => b.toNat)
      (names = [] ∨ ¬ names.Nodup →
        exec .resetBaseline s = .next { s with link := s.replied r rest (.refused .range) .none }) ∧
      (names ≠ [] → names.Nodup →
        ∃ t, exec .resetBaseline s = .next t ∧
          t = { s with
            monitor := { s.monitor with branches := t.monitor.branches }
            link := s.replied r rest .done (.resetBaseline names.length) } ∧
          ∀ n, t.branch n =
            if n ∈ names then { s.branch n with phase := .cold, cold := 0, baseline := 0 } else s.branch n))
end

