-- ==== Sys2Proof/Laws/State.lean ====
section
/-! SUPPORT. The field lemmas of the named state updates: one for each field of State under each update, true by
`rfl`, and the accessors of the tables through every update that leaves their table alone. -/

namespace Sys2Proof.Machine

variable (s : State)

/-! ## setSlot -/

@[simp] theorem State.setSlot_pending (n : Nat) (v : Slot) : (s.setSlot n v).pending = s.pending := rfl
@[simp] theorem State.setSlot_freeNext (n : Nat) (v : Slot) : (s.setSlot n v).freeNext = s.freeNext := rfl
@[simp] theorem State.setSlot_ctl (n : Nat) (v : Slot) : (s.setSlot n v).ctl = s.ctl := rfl
@[simp] theorem State.setSlot_link (n : Nat) (v : Slot) : (s.setSlot n v).link = s.link := rfl
@[simp] theorem State.setSlot_slots (n : Nat) (v : Slot) : (s.setSlot n v).slots = tableSet Slot.free s.slots n v := rfl
@[simp] theorem State.setSlot_dataHeld (n : Nat) (v : Slot) : (s.setSlot n v).dataHeld = s.dataHeld := rfl
@[simp] theorem State.setSlot_sched (n : Nat) (v : Slot) : (s.setSlot n v).sched = s.sched := rfl
@[simp] theorem State.setSlot_lanes (n : Nat) (v : Slot) : (s.setSlot n v).lanes = s.lanes := rfl
@[simp] theorem State.setSlot_waitOrder (n : Nat) (v : Slot) : (s.setSlot n v).waitOrder = s.waitOrder := rfl
@[simp] theorem State.setSlot_index (n : Nat) (v : Slot) : (s.setSlot n v).index = s.index := rfl
@[simp] theorem State.setSlot_place (n : Nat) (v : Slot) : (s.setSlot n v).place = s.place := rfl
@[simp] theorem State.setSlot_walker (n : Nat) (v : Slot) : (s.setSlot n v).walker = s.walker := rfl
@[simp] theorem State.setSlot_marks (n : Nat) (v : Slot) : (s.setSlot n v).marks = s.marks := rfl
@[simp] theorem State.setSlot_monitor (n : Nat) (v : Slot) : (s.setSlot n v).monitor = s.monitor := rfl
@[simp] theorem State.setSlot_lane (n : Nat) (v : Slot) (m : Nat) : (s.setSlot n v).lane m = s.lane m := rfl
@[simp] theorem State.setSlot_bucket (n : Nat) (v : Slot) (m : Nat) : (s.setSlot n v).bucket m = s.bucket m := rfl
@[simp] theorem State.setSlot_container (n : Nat) (v : Slot) (m : Nat) :
    (s.setSlot n v).container m = s.container m := rfl
@[simp] theorem State.setSlot_openPlace (n : Nat) (v : Slot) (m : Nat) :
    (s.setSlot n v).openPlace m = s.openPlace m := rfl
@[simp] theorem State.setSlot_branch (n : Nat) (v : Slot) (m : Nat) : (s.setSlot n v).branch m = s.branch m := rfl

/-! ## mapSlots -/

@[simp] theorem State.mapSlots_pending (f : Slot → Slot) : (s.mapSlots f).pending = s.pending := rfl
@[simp] theorem State.mapSlots_freeNext (f : Slot → Slot) : (s.mapSlots f).freeNext = s.freeNext := rfl
@[simp] theorem State.mapSlots_ctl (f : Slot → Slot) : (s.mapSlots f).ctl = s.ctl := rfl
@[simp] theorem State.mapSlots_link (f : Slot → Slot) : (s.mapSlots f).link = s.link := rfl
@[simp] theorem State.mapSlots_slots (f : Slot → Slot) :
    (s.mapSlots f).slots = s.slots.map (fun p => (p.1, f p.2)) := rfl
@[simp] theorem State.mapSlots_dataHeld (f : Slot → Slot) : (s.mapSlots f).dataHeld = s.dataHeld := rfl
@[simp] theorem State.mapSlots_sched (f : Slot → Slot) : (s.mapSlots f).sched = s.sched := rfl
@[simp] theorem State.mapSlots_lanes (f : Slot → Slot) : (s.mapSlots f).lanes = s.lanes := rfl
@[simp] theorem State.mapSlots_waitOrder (f : Slot → Slot) : (s.mapSlots f).waitOrder = s.waitOrder := rfl
@[simp] theorem State.mapSlots_index (f : Slot → Slot) : (s.mapSlots f).index = s.index := rfl
@[simp] theorem State.mapSlots_place (f : Slot → Slot) : (s.mapSlots f).place = s.place := rfl
@[simp] theorem State.mapSlots_walker (f : Slot → Slot) : (s.mapSlots f).walker = s.walker := rfl
@[simp] theorem State.mapSlots_marks (f : Slot → Slot) : (s.mapSlots f).marks = s.marks := rfl
@[simp] theorem State.mapSlots_monitor (f : Slot → Slot) : (s.mapSlots f).monitor = s.monitor := rfl
@[simp] theorem State.mapSlots_lane (f : Slot → Slot) (m : Nat) : (s.mapSlots f).lane m = s.lane m := rfl
@[simp] theorem State.mapSlots_bucket (f : Slot → Slot) (m : Nat) : (s.mapSlots f).bucket m = s.bucket m := rfl
@[simp] theorem State.mapSlots_container (f : Slot → Slot) (m : Nat) : (s.mapSlots f).container m = s.container m := rfl
@[simp] theorem State.mapSlots_openPlace (f : Slot → Slot) (m : Nat) : (s.mapSlots f).openPlace m = s.openPlace m := rfl
@[simp] theorem State.mapSlots_branch (f : Slot → Slot) (m : Nat) : (s.mapSlots f).branch m = s.branch m := rfl

/-! ## setLane -/

@[simp] theorem State.setLane_pending (l : Nat) (v : Lane) : (s.setLane l v).pending = s.pending := rfl
@[simp] theorem State.setLane_freeNext (l : Nat) (v : Lane) : (s.setLane l v).freeNext = s.freeNext := rfl
@[simp] theorem State.setLane_ctl (l : Nat) (v : Lane) : (s.setLane l v).ctl = s.ctl := rfl
@[simp] theorem State.setLane_link (l : Nat) (v : Lane) : (s.setLane l v).link = s.link := rfl
@[simp] theorem State.setLane_slots (l : Nat) (v : Lane) : (s.setLane l v).slots = s.slots := rfl
@[simp] theorem State.setLane_dataHeld (l : Nat) (v : Lane) : (s.setLane l v).dataHeld = s.dataHeld := rfl
@[simp] theorem State.setLane_sched (l : Nat) (v : Lane) : (s.setLane l v).sched = s.sched := rfl
@[simp] theorem State.setLane_lanes (l : Nat) (v : Lane) : (s.setLane l v).lanes = tableSet Lane.idle s.lanes l v := rfl
@[simp] theorem State.setLane_waitOrder (l : Nat) (v : Lane) : (s.setLane l v).waitOrder = s.waitOrder := rfl
@[simp] theorem State.setLane_index (l : Nat) (v : Lane) : (s.setLane l v).index = s.index := rfl
@[simp] theorem State.setLane_place (l : Nat) (v : Lane) : (s.setLane l v).place = s.place := rfl
@[simp] theorem State.setLane_walker (l : Nat) (v : Lane) : (s.setLane l v).walker = s.walker := rfl
@[simp] theorem State.setLane_marks (l : Nat) (v : Lane) : (s.setLane l v).marks = s.marks := rfl
@[simp] theorem State.setLane_monitor (l : Nat) (v : Lane) : (s.setLane l v).monitor = s.monitor := rfl
@[simp] theorem State.setLane_slot (l : Nat) (v : Lane) (m : Nat) : (s.setLane l v).slot m = s.slot m := rfl
@[simp] theorem State.setLane_bucket (l : Nat) (v : Lane) (m : Nat) : (s.setLane l v).bucket m = s.bucket m := rfl
@[simp] theorem State.setLane_container (l : Nat) (v : Lane) (m : Nat) :
    (s.setLane l v).container m = s.container m := rfl
@[simp] theorem State.setLane_openPlace (l : Nat) (v : Lane) (m : Nat) :
    (s.setLane l v).openPlace m = s.openPlace m := rfl
@[simp] theorem State.setLane_branch (l : Nat) (v : Lane) (m : Nat) : (s.setLane l v).branch m = s.branch m := rfl

/-! ## setBucket -/

@[simp] theorem State.setBucket_pending (b : Nat) (v : Bucket) : (s.setBucket b v).pending = s.pending := rfl
@[simp] theorem State.setBucket_freeNext (b : Nat) (v : Bucket) : (s.setBucket b v).freeNext = s.freeNext := rfl
@[simp] theorem State.setBucket_ctl (b : Nat) (v : Bucket) : (s.setBucket b v).ctl = s.ctl := rfl
@[simp] theorem State.setBucket_link (b : Nat) (v : Bucket) : (s.setBucket b v).link = s.link := rfl
@[simp] theorem State.setBucket_slots (b : Nat) (v : Bucket) : (s.setBucket b v).slots = s.slots := rfl
@[simp] theorem State.setBucket_dataHeld (b : Nat) (v : Bucket) : (s.setBucket b v).dataHeld = s.dataHeld := rfl
@[simp] theorem State.setBucket_sched (b : Nat) (v : Bucket) : (s.setBucket b v).sched = s.sched := rfl
@[simp] theorem State.setBucket_lanes (b : Nat) (v : Bucket) : (s.setBucket b v).lanes = s.lanes := rfl
@[simp] theorem State.setBucket_waitOrder (b : Nat) (v : Bucket) : (s.setBucket b v).waitOrder = s.waitOrder := rfl
@[simp] theorem State.setBucket_index (b : Nat) (v : Bucket) :
    (s.setBucket b v).index = { s.index with buckets := tableSet Bucket.empty s.index.buckets b v } := rfl
@[simp] theorem State.setBucket_place (b : Nat) (v : Bucket) : (s.setBucket b v).place = s.place := rfl
@[simp] theorem State.setBucket_walker (b : Nat) (v : Bucket) : (s.setBucket b v).walker = s.walker := rfl
@[simp] theorem State.setBucket_marks (b : Nat) (v : Bucket) : (s.setBucket b v).marks = s.marks := rfl
@[simp] theorem State.setBucket_monitor (b : Nat) (v : Bucket) : (s.setBucket b v).monitor = s.monitor := rfl
@[simp] theorem State.setBucket_slot (b : Nat) (v : Bucket) (m : Nat) : (s.setBucket b v).slot m = s.slot m := rfl
@[simp] theorem State.setBucket_lane (b : Nat) (v : Bucket) (m : Nat) : (s.setBucket b v).lane m = s.lane m := rfl
@[simp] theorem State.setBucket_container (b : Nat) (v : Bucket) (m : Nat) :
    (s.setBucket b v).container m = s.container m := rfl
@[simp] theorem State.setBucket_openPlace (b : Nat) (v : Bucket) (m : Nat) :
    (s.setBucket b v).openPlace m = s.openPlace m := rfl
@[simp] theorem State.setBucket_branch (b : Nat) (v : Bucket) (m : Nat) : (s.setBucket b v).branch m = s.branch m := rfl

/-! ## setSpill -/

@[simp] theorem State.setSpill_pending (fp : Fp) (len : Nat) (v : Option SpillEntry) :
    (s.setSpill fp len v).pending = s.pending := rfl
@[simp] theorem State.setSpill_freeNext (fp : Fp) (len : Nat) (v : Option SpillEntry) :
    (s.setSpill fp len v).freeNext = s.freeNext := rfl
@[simp] theorem State.setSpill_ctl (fp : Fp) (len : Nat) (v : Option SpillEntry) :
    (s.setSpill fp len v).ctl = s.ctl := rfl
@[simp] theorem State.setSpill_link (fp : Fp) (len : Nat) (v : Option SpillEntry) :
    (s.setSpill fp len v).link = s.link := rfl
@[simp] theorem State.setSpill_slots (fp : Fp) (len : Nat) (v : Option SpillEntry) :
    (s.setSpill fp len v).slots = s.slots := rfl
@[simp] theorem State.setSpill_dataHeld (fp : Fp) (len : Nat) (v : Option SpillEntry) :
    (s.setSpill fp len v).dataHeld = s.dataHeld := rfl
@[simp] theorem State.setSpill_sched (fp : Fp) (len : Nat) (v : Option SpillEntry) :
    (s.setSpill fp len v).sched = s.sched := rfl
@[simp] theorem State.setSpill_lanes (fp : Fp) (len : Nat) (v : Option SpillEntry) :
    (s.setSpill fp len v).lanes = s.lanes := rfl
@[simp] theorem State.setSpill_waitOrder (fp : Fp) (len : Nat) (v : Option SpillEntry) :
    (s.setSpill fp len v).waitOrder = s.waitOrder := rfl
@[simp] theorem State.setSpill_index (fp : Fp) (len : Nat) (v : Option SpillEntry) :
    (s.setSpill fp len v).index = { s.index with spill := tableSet none s.index.spill (spillKey fp len) v } := rfl
@[simp] theorem State.setSpill_place (fp : Fp) (len : Nat) (v : Option SpillEntry) :
    (s.setSpill fp len v).place = s.place := rfl
@[simp] theorem State.setSpill_walker (fp : Fp) (len : Nat) (v : Option SpillEntry) :
    (s.setSpill fp len v).walker = s.walker := rfl
@[simp] theorem State.setSpill_marks (fp : Fp) (len : Nat) (v : Option SpillEntry) :
    (s.setSpill fp len v).marks = s.marks := rfl
@[simp] theorem State.setSpill_monitor (fp : Fp) (len : Nat) (v : Option SpillEntry) :
    (s.setSpill fp len v).monitor = s.monitor := rfl
@[simp] theorem State.setSpill_slot (fp : Fp) (len : Nat) (v : Option SpillEntry) (m : Nat) :
    (s.setSpill fp len v).slot m = s.slot m := rfl
@[simp] theorem State.setSpill_lane (fp : Fp) (len : Nat) (v : Option SpillEntry) (m : Nat) :
    (s.setSpill fp len v).lane m = s.lane m := rfl
@[simp] theorem State.setSpill_bucket (fp : Fp) (len : Nat) (v : Option SpillEntry) (m : Nat) :
    (s.setSpill fp len v).bucket m = s.bucket m := rfl
@[simp] theorem State.setSpill_container (fp : Fp) (len : Nat) (v : Option SpillEntry) (m : Nat) :
    (s.setSpill fp len v).container m = s.container m := rfl
@[simp] theorem State.setSpill_openPlace (fp : Fp) (len : Nat) (v : Option SpillEntry) (m : Nat) :
    (s.setSpill fp len v).openPlace m = s.openPlace m := rfl
@[simp] theorem State.setSpill_branch (fp : Fp) (len : Nat) (v : Option SpillEntry) (m : Nat) :
    (s.setSpill fp len v).branch m = s.branch m := rfl

/-! ## enterFlight -/

@[simp] theorem State.enterFlight_pending (b : Nat) : (s.enterFlight b).pending = s.pending := rfl
@[simp] theorem State.enterFlight_freeNext (b : Nat) : (s.enterFlight b).freeNext = s.freeNext := rfl
@[simp] theorem State.enterFlight_ctl (b : Nat) : (s.enterFlight b).ctl = s.ctl := rfl
@[simp] theorem State.enterFlight_link (b : Nat) : (s.enterFlight b).link = s.link := rfl
@[simp] theorem State.enterFlight_slots (b : Nat) : (s.enterFlight b).slots = s.slots := rfl
@[simp] theorem State.enterFlight_dataHeld (b : Nat) : (s.enterFlight b).dataHeld = s.dataHeld := rfl
@[simp] theorem State.enterFlight_sched (b : Nat) : (s.enterFlight b).sched = s.sched := rfl
@[simp] theorem State.enterFlight_lanes (b : Nat) : (s.enterFlight b).lanes = s.lanes := rfl
@[simp] theorem State.enterFlight_waitOrder (b : Nat) : (s.enterFlight b).waitOrder = s.waitOrder := rfl
@[simp] theorem State.enterFlight_index (b : Nat) :
    (s.enterFlight b).index = { s.index with inflight := s.index.inflight ++ [b] } := rfl
@[simp] theorem State.enterFlight_place (b : Nat) : (s.enterFlight b).place = s.place := rfl
@[simp] theorem State.enterFlight_walker (b : Nat) : (s.enterFlight b).walker = s.walker := rfl
@[simp] theorem State.enterFlight_marks (b : Nat) : (s.enterFlight b).marks = s.marks := rfl
@[simp] theorem State.enterFlight_monitor (b : Nat) : (s.enterFlight b).monitor = s.monitor := rfl
@[simp] theorem State.enterFlight_slot (b : Nat) (m : Nat) : (s.enterFlight b).slot m = s.slot m := rfl
@[simp] theorem State.enterFlight_lane (b : Nat) (m : Nat) : (s.enterFlight b).lane m = s.lane m := rfl
@[simp] theorem State.enterFlight_bucket (b : Nat) (m : Nat) : (s.enterFlight b).bucket m = s.bucket m := rfl
@[simp] theorem State.enterFlight_container (b : Nat) (m : Nat) : (s.enterFlight b).container m = s.container m := rfl
@[simp] theorem State.enterFlight_openPlace (b : Nat) (m : Nat) : (s.enterFlight b).openPlace m = s.openPlace m := rfl
@[simp] theorem State.enterFlight_branch (b : Nat) (m : Nat) : (s.enterFlight b).branch m = s.branch m := rfl

/-! ## leaveFlight -/

@[simp] theorem State.leaveFlight_pending (b : Nat) : (s.leaveFlight b).pending = s.pending := rfl
@[simp] theorem State.leaveFlight_freeNext (b : Nat) : (s.leaveFlight b).freeNext = s.freeNext := rfl
@[simp] theorem State.leaveFlight_ctl (b : Nat) : (s.leaveFlight b).ctl = s.ctl := rfl
@[simp] theorem State.leaveFlight_link (b : Nat) : (s.leaveFlight b).link = s.link := rfl
@[simp] theorem State.leaveFlight_slots (b : Nat) : (s.leaveFlight b).slots = s.slots := rfl
@[simp] theorem State.leaveFlight_dataHeld (b : Nat) : (s.leaveFlight b).dataHeld = s.dataHeld := rfl
@[simp] theorem State.leaveFlight_sched (b : Nat) : (s.leaveFlight b).sched = s.sched := rfl
@[simp] theorem State.leaveFlight_lanes (b : Nat) : (s.leaveFlight b).lanes = s.lanes := rfl
@[simp] theorem State.leaveFlight_waitOrder (b : Nat) : (s.leaveFlight b).waitOrder = s.waitOrder := rfl
@[simp] theorem State.leaveFlight_index (b : Nat) :
    (s.leaveFlight b).index = { s.index with inflight := s.index.inflight.filter (fun x => x != b) } := rfl
@[simp] theorem State.leaveFlight_place (b : Nat) : (s.leaveFlight b).place = s.place := rfl
@[simp] theorem State.leaveFlight_walker (b : Nat) : (s.leaveFlight b).walker = s.walker := rfl
@[simp] theorem State.leaveFlight_marks (b : Nat) : (s.leaveFlight b).marks = s.marks := rfl
@[simp] theorem State.leaveFlight_monitor (b : Nat) : (s.leaveFlight b).monitor = s.monitor := rfl
@[simp] theorem State.leaveFlight_slot (b : Nat) (m : Nat) : (s.leaveFlight b).slot m = s.slot m := rfl
@[simp] theorem State.leaveFlight_lane (b : Nat) (m : Nat) : (s.leaveFlight b).lane m = s.lane m := rfl
@[simp] theorem State.leaveFlight_bucket (b : Nat) (m : Nat) : (s.leaveFlight b).bucket m = s.bucket m := rfl
@[simp] theorem State.leaveFlight_container (b : Nat) (m : Nat) : (s.leaveFlight b).container m = s.container m := rfl
@[simp] theorem State.leaveFlight_openPlace (b : Nat) (m : Nat) : (s.leaveFlight b).openPlace m = s.openPlace m := rfl
@[simp] theorem State.leaveFlight_branch (b : Nat) (m : Nat) : (s.leaveFlight b).branch m = s.branch m := rfl

/-! ## setContainer -/

@[simp] theorem State.setContainer_pending (c : Nat) (v : Container) : (s.setContainer c v).pending = s.pending := rfl
@[simp] theorem State.setContainer_freeNext (c : Nat) (v : Container) :
    (s.setContainer c v).freeNext = s.freeNext := rfl
@[simp] theorem State.setContainer_ctl (c : Nat) (v : Container) : (s.setContainer c v).ctl = s.ctl := rfl
@[simp] theorem State.setContainer_link (c : Nat) (v : Container) : (s.setContainer c v).link = s.link := rfl
@[simp] theorem State.setContainer_slots (c : Nat) (v : Container) : (s.setContainer c v).slots = s.slots := rfl
@[simp] theorem State.setContainer_dataHeld (c : Nat) (v : Container) :
    (s.setContainer c v).dataHeld = s.dataHeld := rfl
@[simp] theorem State.setContainer_sched (c : Nat) (v : Container) : (s.setContainer c v).sched = s.sched := rfl
@[simp] theorem State.setContainer_lanes (c : Nat) (v : Container) : (s.setContainer c v).lanes = s.lanes := rfl
@[simp] theorem State.setContainer_waitOrder (c : Nat) (v : Container) :
    (s.setContainer c v).waitOrder = s.waitOrder := rfl
@[simp] theorem State.setContainer_index (c : Nat) (v : Container) : (s.setContainer c v).index = s.index := rfl
@[simp] theorem State.setContainer_place (c : Nat) (v : Container) :
    (s.setContainer c v).place = { s.place with containers := tableSet Container.free s.place.containers c v } := rfl
@[simp] theorem State.setContainer_walker (c : Nat) (v : Container) : (s.setContainer c v).walker = s.walker := rfl
@[simp] theorem State.setContainer_marks (c : Nat) (v : Container) : (s.setContainer c v).marks = s.marks := rfl
@[simp] theorem State.setContainer_monitor (c : Nat) (v : Container) : (s.setContainer c v).monitor = s.monitor := rfl
@[simp] theorem State.setContainer_slot (c : Nat) (v : Container) (m : Nat) :
    (s.setContainer c v).slot m = s.slot m := rfl
@[simp] theorem State.setContainer_lane (c : Nat) (v : Container) (m : Nat) :
    (s.setContainer c v).lane m = s.lane m := rfl
@[simp] theorem State.setContainer_bucket (c : Nat) (v : Container) (m : Nat) :
    (s.setContainer c v).bucket m = s.bucket m := rfl
@[simp] theorem State.setContainer_openPlace (c : Nat) (v : Container) (m : Nat) :
    (s.setContainer c v).openPlace m = s.openPlace m := rfl
@[simp] theorem State.setContainer_branch (c : Nat) (v : Container) (m : Nat) :
    (s.setContainer c v).branch m = s.branch m := rfl

/-! ## setOpenPlace -/

@[simp] theorem State.setOpenPlace_pending (g : Nat) (v : Option Nat) : (s.setOpenPlace g v).pending = s.pending := rfl
@[simp] theorem State.setOpenPlace_freeNext (g : Nat) (v : Option Nat) :
    (s.setOpenPlace g v).freeNext = s.freeNext := rfl
@[simp] theorem State.setOpenPlace_ctl (g : Nat) (v : Option Nat) : (s.setOpenPlace g v).ctl = s.ctl := rfl
@[simp] theorem State.setOpenPlace_link (g : Nat) (v : Option Nat) : (s.setOpenPlace g v).link = s.link := rfl
@[simp] theorem State.setOpenPlace_slots (g : Nat) (v : Option Nat) : (s.setOpenPlace g v).slots = s.slots := rfl
@[simp] theorem State.setOpenPlace_dataHeld (g : Nat) (v : Option Nat) :
    (s.setOpenPlace g v).dataHeld = s.dataHeld := rfl
@[simp] theorem State.setOpenPlace_sched (g : Nat) (v : Option Nat) : (s.setOpenPlace g v).sched = s.sched := rfl
@[simp] theorem State.setOpenPlace_lanes (g : Nat) (v : Option Nat) : (s.setOpenPlace g v).lanes = s.lanes := rfl
@[simp] theorem State.setOpenPlace_waitOrder (g : Nat) (v : Option Nat) :
    (s.setOpenPlace g v).waitOrder = s.waitOrder := rfl
@[simp] theorem State.setOpenPlace_index (g : Nat) (v : Option Nat) : (s.setOpenPlace g v).index = s.index := rfl
@[simp] theorem State.setOpenPlace_place (g : Nat) (v : Option Nat) :
    (s.setOpenPlace g v).place = { s.place with openPlaces := tableSet none s.place.openPlaces g v } := rfl
@[simp] theorem State.setOpenPlace_walker (g : Nat) (v : Option Nat) : (s.setOpenPlace g v).walker = s.walker := rfl
@[simp] theorem State.setOpenPlace_marks (g : Nat) (v : Option Nat) : (s.setOpenPlace g v).marks = s.marks := rfl
@[simp] theorem State.setOpenPlace_monitor (g : Nat) (v : Option Nat) : (s.setOpenPlace g v).monitor = s.monitor := rfl
@[simp] theorem State.setOpenPlace_slot (g : Nat) (v : Option Nat) (m : Nat) :
    (s.setOpenPlace g v).slot m = s.slot m := rfl
@[simp] theorem State.setOpenPlace_lane (g : Nat) (v : Option Nat) (m : Nat) :
    (s.setOpenPlace g v).lane m = s.lane m := rfl
@[simp] theorem State.setOpenPlace_bucket (g : Nat) (v : Option Nat) (m : Nat) :
    (s.setOpenPlace g v).bucket m = s.bucket m := rfl
@[simp] theorem State.setOpenPlace_container (g : Nat) (v : Option Nat) (m : Nat) :
    (s.setOpenPlace g v).container m = s.container m := rfl
@[simp] theorem State.setOpenPlace_branch (g : Nat) (v : Option Nat) (m : Nat) :
    (s.setOpenPlace g v).branch m = s.branch m := rfl

/-! ## holdPlace -/

@[simp] theorem State.holdPlace_pending (h : PlaceHold) : (s.holdPlace h).pending = s.pending := rfl
@[simp] theorem State.holdPlace_freeNext (h : PlaceHold) : (s.holdPlace h).freeNext = s.freeNext := rfl
@[simp] theorem State.holdPlace_ctl (h : PlaceHold) : (s.holdPlace h).ctl = s.ctl := rfl
@[simp] theorem State.holdPlace_link (h : PlaceHold) : (s.holdPlace h).link = s.link := rfl
@[simp] theorem State.holdPlace_slots (h : PlaceHold) : (s.holdPlace h).slots = s.slots := rfl
@[simp] theorem State.holdPlace_dataHeld (h : PlaceHold) : (s.holdPlace h).dataHeld = s.dataHeld := rfl
@[simp] theorem State.holdPlace_sched (h : PlaceHold) : (s.holdPlace h).sched = s.sched := rfl
@[simp] theorem State.holdPlace_lanes (h : PlaceHold) : (s.holdPlace h).lanes = s.lanes := rfl
@[simp] theorem State.holdPlace_waitOrder (h : PlaceHold) : (s.holdPlace h).waitOrder = s.waitOrder := rfl
@[simp] theorem State.holdPlace_index (h : PlaceHold) : (s.holdPlace h).index = s.index := rfl
@[simp] theorem State.holdPlace_place (h : PlaceHold) : (s.holdPlace h).place = { s.place with held := some h } := rfl
@[simp] theorem State.holdPlace_walker (h : PlaceHold) : (s.holdPlace h).walker = s.walker := rfl
@[simp] theorem State.holdPlace_marks (h : PlaceHold) : (s.holdPlace h).marks = s.marks := rfl
@[simp] theorem State.holdPlace_monitor (h : PlaceHold) : (s.holdPlace h).monitor = s.monitor := rfl
@[simp] theorem State.holdPlace_slot (h : PlaceHold) (m : Nat) : (s.holdPlace h).slot m = s.slot m := rfl
@[simp] theorem State.holdPlace_lane (h : PlaceHold) (m : Nat) : (s.holdPlace h).lane m = s.lane m := rfl
@[simp] theorem State.holdPlace_bucket (h : PlaceHold) (m : Nat) : (s.holdPlace h).bucket m = s.bucket m := rfl
@[simp] theorem State.holdPlace_container (h : PlaceHold) (m : Nat) : (s.holdPlace h).container m = s.container m := rfl
@[simp] theorem State.holdPlace_openPlace (h : PlaceHold) (m : Nat) : (s.holdPlace h).openPlace m = s.openPlace m := rfl
@[simp] theorem State.holdPlace_branch (h : PlaceHold) (m : Nat) : (s.holdPlace h).branch m = s.branch m := rfl

/-! ## unholdPlace -/

@[simp] theorem State.unholdPlace_pending : (s.unholdPlace).pending = s.pending := rfl
@[simp] theorem State.unholdPlace_freeNext : (s.unholdPlace).freeNext = s.freeNext := rfl
@[simp] theorem State.unholdPlace_ctl : (s.unholdPlace).ctl = s.ctl := rfl
@[simp] theorem State.unholdPlace_link : (s.unholdPlace).link = s.link := rfl
@[simp] theorem State.unholdPlace_slots : (s.unholdPlace).slots = s.slots := rfl
@[simp] theorem State.unholdPlace_dataHeld : (s.unholdPlace).dataHeld = s.dataHeld := rfl
@[simp] theorem State.unholdPlace_sched : (s.unholdPlace).sched = s.sched := rfl
@[simp] theorem State.unholdPlace_lanes : (s.unholdPlace).lanes = s.lanes := rfl
@[simp] theorem State.unholdPlace_waitOrder : (s.unholdPlace).waitOrder = s.waitOrder := rfl
@[simp] theorem State.unholdPlace_index : (s.unholdPlace).index = s.index := rfl
@[simp] theorem State.unholdPlace_place : (s.unholdPlace).place = { s.place with held := none } := rfl
@[simp] theorem State.unholdPlace_walker : (s.unholdPlace).walker = s.walker := rfl
@[simp] theorem State.unholdPlace_marks : (s.unholdPlace).marks = s.marks := rfl
@[simp] theorem State.unholdPlace_monitor : (s.unholdPlace).monitor = s.monitor := rfl
@[simp] theorem State.unholdPlace_slot (m : Nat) : (s.unholdPlace).slot m = s.slot m := rfl
@[simp] theorem State.unholdPlace_lane (m : Nat) : (s.unholdPlace).lane m = s.lane m := rfl
@[simp] theorem State.unholdPlace_bucket (m : Nat) : (s.unholdPlace).bucket m = s.bucket m := rfl
@[simp] theorem State.unholdPlace_container (m : Nat) : (s.unholdPlace).container m = s.container m := rfl
@[simp] theorem State.unholdPlace_openPlace (m : Nat) : (s.unholdPlace).openPlace m = s.openPlace m := rfl
@[simp] theorem State.unholdPlace_branch (m : Nat) : (s.unholdPlace).branch m = s.branch m := rfl

/-! ## dropHandOns -/

@[simp] theorem State.dropHandOns_pending (n : Nat) : (s.dropHandOns n).pending = s.pending := rfl
@[simp] theorem State.dropHandOns_freeNext (n : Nat) : (s.dropHandOns n).freeNext = s.freeNext := rfl
@[simp] theorem State.dropHandOns_ctl (n : Nat) : (s.dropHandOns n).ctl = s.ctl := rfl
@[simp] theorem State.dropHandOns_link (n : Nat) : (s.dropHandOns n).link = s.link := rfl
@[simp] theorem State.dropHandOns_slots (n : Nat) : (s.dropHandOns n).slots = s.slots := rfl
@[simp] theorem State.dropHandOns_dataHeld (n : Nat) : (s.dropHandOns n).dataHeld = s.dataHeld := rfl
@[simp] theorem State.dropHandOns_sched (n : Nat) : (s.dropHandOns n).sched = s.sched := rfl
@[simp] theorem State.dropHandOns_lanes (n : Nat) : (s.dropHandOns n).lanes = s.lanes := rfl
@[simp] theorem State.dropHandOns_waitOrder (n : Nat) : (s.dropHandOns n).waitOrder = s.waitOrder := rfl
@[simp] theorem State.dropHandOns_index (n : Nat) : (s.dropHandOns n).index = s.index := rfl
@[simp] theorem State.dropHandOns_place (n : Nat) : (s.dropHandOns n).place = s.place := rfl
@[simp] theorem State.dropHandOns_walker (n : Nat) : (s.dropHandOns n).walker = s.walker := rfl
@[simp] theorem State.dropHandOns_marks (n : Nat) :
    (s.dropHandOns n).marks = { s.marks with handOns := s.marks.handOns.filter (fun h => h.stream != n) } := rfl
@[simp] theorem State.dropHandOns_monitor (n : Nat) : (s.dropHandOns n).monitor = s.monitor := rfl
@[simp] theorem State.dropHandOns_slot (n : Nat) (m : Nat) : (s.dropHandOns n).slot m = s.slot m := rfl
@[simp] theorem State.dropHandOns_lane (n : Nat) (m : Nat) : (s.dropHandOns n).lane m = s.lane m := rfl
@[simp] theorem State.dropHandOns_bucket (n : Nat) (m : Nat) : (s.dropHandOns n).bucket m = s.bucket m := rfl
@[simp] theorem State.dropHandOns_container (n : Nat) (m : Nat) : (s.dropHandOns n).container m = s.container m := rfl
@[simp] theorem State.dropHandOns_openPlace (n : Nat) (m : Nat) : (s.dropHandOns n).openPlace m = s.openPlace m := rfl
@[simp] theorem State.dropHandOns_branch (n : Nat) (m : Nat) : (s.dropHandOns n).branch m = s.branch m := rfl

/-! ## setBranch -/

@[simp] theorem State.setBranch_pending (b : Nat) (v : Branch) : (s.setBranch b v).pending = s.pending := rfl
@[simp] theorem State.setBranch_freeNext (b : Nat) (v : Branch) : (s.setBranch b v).freeNext = s.freeNext := rfl
@[simp] theorem State.setBranch_ctl (b : Nat) (v : Branch) : (s.setBranch b v).ctl = s.ctl := rfl
@[simp] theorem State.setBranch_link (b : Nat) (v : Branch) : (s.setBranch b v).link = s.link := rfl
@[simp] theorem State.setBranch_slots (b : Nat) (v : Branch) : (s.setBranch b v).slots = s.slots := rfl
@[simp] theorem State.setBranch_dataHeld (b : Nat) (v : Branch) : (s.setBranch b v).dataHeld = s.dataHeld := rfl
@[simp] theorem State.setBranch_sched (b : Nat) (v : Branch) : (s.setBranch b v).sched = s.sched := rfl
@[simp] theorem State.setBranch_lanes (b : Nat) (v : Branch) : (s.setBranch b v).lanes = s.lanes := rfl
@[simp] theorem State.setBranch_waitOrder (b : Nat) (v : Branch) : (s.setBranch b v).waitOrder = s.waitOrder := rfl
@[simp] theorem State.setBranch_index (b : Nat) (v : Branch) : (s.setBranch b v).index = s.index := rfl
@[simp] theorem State.setBranch_place (b : Nat) (v : Branch) : (s.setBranch b v).place = s.place := rfl
@[simp] theorem State.setBranch_walker (b : Nat) (v : Branch) : (s.setBranch b v).walker = s.walker := rfl
@[simp] theorem State.setBranch_marks (b : Nat) (v : Branch) : (s.setBranch b v).marks = s.marks := rfl
@[simp] theorem State.setBranch_monitor (b : Nat) (v : Branch) :
    (s.setBranch b v).monitor = { s.monitor with branches := tableSet Branch.fresh s.monitor.branches b v } := rfl
@[simp] theorem State.setBranch_slot (b : Nat) (v : Branch) (m : Nat) : (s.setBranch b v).slot m = s.slot m := rfl
@[simp] theorem State.setBranch_lane (b : Nat) (v : Branch) (m : Nat) : (s.setBranch b v).lane m = s.lane m := rfl
@[simp] theorem State.setBranch_bucket (b : Nat) (v : Branch) (m : Nat) : (s.setBranch b v).bucket m = s.bucket m := rfl
@[simp] theorem State.setBranch_container (b : Nat) (v : Branch) (m : Nat) :
    (s.setBranch b v).container m = s.container m := rfl
@[simp] theorem State.setBranch_openPlace (b : Nat) (v : Branch) (m : Nat) :
    (s.setBranch b v).openPlace m = s.openPlace m := rfl

/-! ## noteCorrected -/

@[simp] theorem State.noteCorrected_pending (k : Nat) : (s.noteCorrected k).pending = s.pending := rfl
@[simp] theorem State.noteCorrected_freeNext (k : Nat) : (s.noteCorrected k).freeNext = s.freeNext := rfl
@[simp] theorem State.noteCorrected_ctl (k : Nat) :
    (s.noteCorrected k).ctl = { s.ctl with corrected := satAdd Config.counterMax s.ctl.corrected k } := rfl
@[simp] theorem State.noteCorrected_link (k : Nat) : (s.noteCorrected k).link = s.link := rfl
@[simp] theorem State.noteCorrected_slots (k : Nat) : (s.noteCorrected k).slots = s.slots := rfl
@[simp] theorem State.noteCorrected_dataHeld (k : Nat) : (s.noteCorrected k).dataHeld = s.dataHeld := rfl
@[simp] theorem State.noteCorrected_sched (k : Nat) : (s.noteCorrected k).sched = s.sched := rfl
@[simp] theorem State.noteCorrected_lanes (k : Nat) : (s.noteCorrected k).lanes = s.lanes := rfl
@[simp] theorem State.noteCorrected_waitOrder (k : Nat) : (s.noteCorrected k).waitOrder = s.waitOrder := rfl
@[simp] theorem State.noteCorrected_index (k : Nat) : (s.noteCorrected k).index = s.index := rfl
@[simp] theorem State.noteCorrected_place (k : Nat) : (s.noteCorrected k).place = s.place := rfl
@[simp] theorem State.noteCorrected_walker (k : Nat) : (s.noteCorrected k).walker = s.walker := rfl
@[simp] theorem State.noteCorrected_marks (k : Nat) : (s.noteCorrected k).marks = s.marks := rfl
@[simp] theorem State.noteCorrected_monitor (k : Nat) : (s.noteCorrected k).monitor = s.monitor := rfl
@[simp] theorem State.noteCorrected_slot (k : Nat) (m : Nat) : (s.noteCorrected k).slot m = s.slot m := rfl
@[simp] theorem State.noteCorrected_lane (k : Nat) (m : Nat) : (s.noteCorrected k).lane m = s.lane m := rfl
@[simp] theorem State.noteCorrected_bucket (k : Nat) (m : Nat) : (s.noteCorrected k).bucket m = s.bucket m := rfl
@[simp] theorem State.noteCorrected_container (k : Nat) (m : Nat) :
    (s.noteCorrected k).container m = s.container m := rfl
@[simp] theorem State.noteCorrected_openPlace (k : Nat) (m : Nat) :
    (s.noteCorrected k).openPlace m = s.openPlace m := rfl
@[simp] theorem State.noteCorrected_branch (k : Nat) (m : Nat) : (s.noteCorrected k).branch m = s.branch m := rfl

/-! ## enter -/

@[simp] theorem State.enter_pending (n : Notice) : (s.enter n).pending = s.pending := rfl
@[simp] theorem State.enter_freeNext (n : Notice) : (s.enter n).freeNext = s.freeNext := rfl
@[simp] theorem State.enter_ctl (n : Notice) : (s.enter n).ctl = s.ctl := rfl
@[simp] theorem State.enter_link (n : Notice) :
    (s.enter n).link = { s.link with notices := s.link.notices ++ [n] } := rfl
@[simp] theorem State.enter_slots (n : Notice) : (s.enter n).slots = s.slots := rfl
@[simp] theorem State.enter_dataHeld (n : Notice) : (s.enter n).dataHeld = s.dataHeld := rfl
@[simp] theorem State.enter_sched (n : Notice) : (s.enter n).sched = s.sched := rfl
@[simp] theorem State.enter_lanes (n : Notice) : (s.enter n).lanes = s.lanes := rfl
@[simp] theorem State.enter_waitOrder (n : Notice) : (s.enter n).waitOrder = s.waitOrder := rfl
@[simp] theorem State.enter_index (n : Notice) : (s.enter n).index = s.index := rfl
@[simp] theorem State.enter_place (n : Notice) : (s.enter n).place = s.place := rfl
@[simp] theorem State.enter_walker (n : Notice) : (s.enter n).walker = s.walker := rfl
@[simp] theorem State.enter_marks (n : Notice) : (s.enter n).marks = s.marks := rfl
@[simp] theorem State.enter_monitor (n : Notice) : (s.enter n).monitor = s.monitor := rfl
@[simp] theorem State.enter_slot (n : Notice) (m : Nat) : (s.enter n).slot m = s.slot m := rfl
@[simp] theorem State.enter_lane (n : Notice) (m : Nat) : (s.enter n).lane m = s.lane m := rfl
@[simp] theorem State.enter_bucket (n : Notice) (m : Nat) : (s.enter n).bucket m = s.bucket m := rfl
@[simp] theorem State.enter_container (n : Notice) (m : Nat) : (s.enter n).container m = s.container m := rfl
@[simp] theorem State.enter_openPlace (n : Notice) (m : Nat) : (s.enter n).openPlace m = s.openPlace m := rfl
@[simp] theorem State.enter_branch (n : Notice) (m : Nat) : (s.enter n).branch m = s.branch m := rfl

/-! ## pushReply -/

@[simp] theorem State.pushReply_pending (r : Reply) : (s.pushReply r).pending = s.pending := rfl
@[simp] theorem State.pushReply_freeNext (r : Reply) : (s.pushReply r).freeNext = s.freeNext := rfl
@[simp] theorem State.pushReply_ctl (r : Reply) : (s.pushReply r).ctl = s.ctl := rfl
@[simp] theorem State.pushReply_link (r : Reply) :
    (s.pushReply r).link = { s.link with replies := s.link.replies ++ [r] } := rfl
@[simp] theorem State.pushReply_slots (r : Reply) : (s.pushReply r).slots = s.slots := rfl
@[simp] theorem State.pushReply_dataHeld (r : Reply) : (s.pushReply r).dataHeld = s.dataHeld := rfl
@[simp] theorem State.pushReply_sched (r : Reply) : (s.pushReply r).sched = s.sched := rfl
@[simp] theorem State.pushReply_lanes (r : Reply) : (s.pushReply r).lanes = s.lanes := rfl
@[simp] theorem State.pushReply_waitOrder (r : Reply) : (s.pushReply r).waitOrder = s.waitOrder := rfl
@[simp] theorem State.pushReply_index (r : Reply) : (s.pushReply r).index = s.index := rfl
@[simp] theorem State.pushReply_place (r : Reply) : (s.pushReply r).place = s.place := rfl
@[simp] theorem State.pushReply_walker (r : Reply) : (s.pushReply r).walker = s.walker := rfl
@[simp] theorem State.pushReply_marks (r : Reply) : (s.pushReply r).marks = s.marks := rfl
@[simp] theorem State.pushReply_monitor (r : Reply) : (s.pushReply r).monitor = s.monitor := rfl
@[simp] theorem State.pushReply_slot (r : Reply) (m : Nat) : (s.pushReply r).slot m = s.slot m := rfl
@[simp] theorem State.pushReply_lane (r : Reply) (m : Nat) : (s.pushReply r).lane m = s.lane m := rfl
@[simp] theorem State.pushReply_bucket (r : Reply) (m : Nat) : (s.pushReply r).bucket m = s.bucket m := rfl
@[simp] theorem State.pushReply_container (r : Reply) (m : Nat) : (s.pushReply r).container m = s.container m := rfl
@[simp] theorem State.pushReply_openPlace (r : Reply) (m : Nat) : (s.pushReply r).openPlace m = s.openPlace m := rfl
@[simp] theorem State.pushReply_branch (r : Reply) (m : Nat) : (s.pushReply r).branch m = s.branch m := rfl

/-! ## popRequest -/

@[simp] theorem State.popRequest_pending : (s.popRequest).pending = s.pending := rfl
@[simp] theorem State.popRequest_freeNext : (s.popRequest).freeNext = s.freeNext := rfl
@[simp] theorem State.popRequest_ctl : (s.popRequest).ctl = s.ctl := rfl
@[simp] theorem State.popRequest_link : (s.popRequest).link = { s.link with requests := s.link.requests.drop 1 } := rfl
@[simp] theorem State.popRequest_slots : (s.popRequest).slots = s.slots := rfl
@[simp] theorem State.popRequest_dataHeld : (s.popRequest).dataHeld = s.dataHeld := rfl
@[simp] theorem State.popRequest_sched : (s.popRequest).sched = s.sched := rfl
@[simp] theorem State.popRequest_lanes : (s.popRequest).lanes = s.lanes := rfl
@[simp] theorem State.popRequest_waitOrder : (s.popRequest).waitOrder = s.waitOrder := rfl
@[simp] theorem State.popRequest_index : (s.popRequest).index = s.index := rfl
@[simp] theorem State.popRequest_place : (s.popRequest).place = s.place := rfl
@[simp] theorem State.popRequest_walker : (s.popRequest).walker = s.walker := rfl
@[simp] theorem State.popRequest_marks : (s.popRequest).marks = s.marks := rfl
@[simp] theorem State.popRequest_monitor : (s.popRequest).monitor = s.monitor := rfl
@[simp] theorem State.popRequest_slot (m : Nat) : (s.popRequest).slot m = s.slot m := rfl
@[simp] theorem State.popRequest_lane (m : Nat) : (s.popRequest).lane m = s.lane m := rfl
@[simp] theorem State.popRequest_bucket (m : Nat) : (s.popRequest).bucket m = s.bucket m := rfl
@[simp] theorem State.popRequest_container (m : Nat) : (s.popRequest).container m = s.container m := rfl
@[simp] theorem State.popRequest_openPlace (m : Nat) : (s.popRequest).openPlace m = s.openPlace m := rfl
@[simp] theorem State.popRequest_branch (m : Nat) : (s.popRequest).branch m = s.branch m := rfl

/-! ## answer -/

@[simp] theorem State.answer_pending (r : Request) (st : Status) (fs : Fields) :
    (s.answer r st fs).pending = s.pending := rfl
@[simp] theorem State.answer_freeNext (r : Request) (st : Status) (fs : Fields) :
    (s.answer r st fs).freeNext = s.freeNext := rfl
@[simp] theorem State.answer_ctl (r : Request) (st : Status) (fs : Fields) : (s.answer r st fs).ctl = s.ctl := rfl
@[simp] theorem State.answer_link (r : Request) (st : Status) (fs : Fields) :
    (s.answer r st fs).link = { s.link with
      requests := s.link.requests.drop 1, replies := s.link.replies ++ [⟨r.kind.code, r.stream, r.tag, st, fs⟩] } := rfl
@[simp] theorem State.answer_slots (r : Request) (st : Status) (fs : Fields) : (s.answer r st fs).slots = s.slots := rfl
@[simp] theorem State.answer_dataHeld (r : Request) (st : Status) (fs : Fields) :
    (s.answer r st fs).dataHeld = s.dataHeld := rfl
@[simp] theorem State.answer_sched (r : Request) (st : Status) (fs : Fields) : (s.answer r st fs).sched = s.sched := rfl
@[simp] theorem State.answer_lanes (r : Request) (st : Status) (fs : Fields) : (s.answer r st fs).lanes = s.lanes := rfl
@[simp] theorem State.answer_waitOrder (r : Request) (st : Status) (fs : Fields) :
    (s.answer r st fs).waitOrder = s.waitOrder := rfl
@[simp] theorem State.answer_index (r : Request) (st : Status) (fs : Fields) : (s.answer r st fs).index = s.index := rfl
@[simp] theorem State.answer_place (r : Request) (st : Status) (fs : Fields) : (s.answer r st fs).place = s.place := rfl
@[simp] theorem State.answer_walker (r : Request) (st : Status) (fs : Fields) :
    (s.answer r st fs).walker = s.walker := rfl
@[simp] theorem State.answer_marks (r : Request) (st : Status) (fs : Fields) : (s.answer r st fs).marks = s.marks := rfl
@[simp] theorem State.answer_monitor (r : Request) (st : Status) (fs : Fields) :
    (s.answer r st fs).monitor = s.monitor := rfl
@[simp] theorem State.answer_slot (r : Request) (st : Status) (fs : Fields) (m : Nat) :
    (s.answer r st fs).slot m = s.slot m := rfl
@[simp] theorem State.answer_lane (r : Request) (st : Status) (fs : Fields) (m : Nat) :
    (s.answer r st fs).lane m = s.lane m := rfl
@[simp] theorem State.answer_bucket (r : Request) (st : Status) (fs : Fields) (m : Nat) :
    (s.answer r st fs).bucket m = s.bucket m := rfl
@[simp] theorem State.answer_container (r : Request) (st : Status) (fs : Fields) (m : Nat) :
    (s.answer r st fs).container m = s.container m := rfl
@[simp] theorem State.answer_openPlace (r : Request) (st : Status) (fs : Fields) (m : Nat) :
    (s.answer r st fs).openPlace m = s.openPlace m := rfl
@[simp] theorem State.answer_branch (r : Request) (st : Status) (fs : Fields) (m : Nat) :
    (s.answer r st fs).branch m = s.branch m := rfl

/-! ## refuse -/

@[simp] theorem State.refuse_pending (r : Request) (e : Reason) : (s.refuse r e).pending = s.pending := rfl
@[simp] theorem State.refuse_freeNext (r : Request) (e : Reason) : (s.refuse r e).freeNext = s.freeNext := rfl
@[simp] theorem State.refuse_ctl (r : Request) (e : Reason) : (s.refuse r e).ctl = s.ctl := rfl
@[simp] theorem State.refuse_link (r : Request) (e : Reason) :
    (s.refuse r e).link = { s.link with
      requests := s.link.requests.drop 1
      replies := s.link.replies ++ [⟨r.kind.code, r.stream, r.tag, .refused e, .none⟩] } := rfl
@[simp] theorem State.refuse_slots (r : Request) (e : Reason) : (s.refuse r e).slots = s.slots := rfl
@[simp] theorem State.refuse_dataHeld (r : Request) (e : Reason) : (s.refuse r e).dataHeld = s.dataHeld := rfl
@[simp] theorem State.refuse_sched (r : Request) (e : Reason) : (s.refuse r e).sched = s.sched := rfl
@[simp] theorem State.refuse_lanes (r : Request) (e : Reason) : (s.refuse r e).lanes = s.lanes := rfl
@[simp] theorem State.refuse_waitOrder (r : Request) (e : Reason) : (s.refuse r e).waitOrder = s.waitOrder := rfl
@[simp] theorem State.refuse_index (r : Request) (e : Reason) : (s.refuse r e).index = s.index := rfl
@[simp] theorem State.refuse_place (r : Request) (e : Reason) : (s.refuse r e).place = s.place := rfl
@[simp] theorem State.refuse_walker (r : Request) (e : Reason) : (s.refuse r e).walker = s.walker := rfl
@[simp] theorem State.refuse_marks (r : Request) (e : Reason) : (s.refuse r e).marks = s.marks := rfl
@[simp] theorem State.refuse_monitor (r : Request) (e : Reason) : (s.refuse r e).monitor = s.monitor := rfl
@[simp] theorem State.refuse_slot (r : Request) (e : Reason) (m : Nat) : (s.refuse r e).slot m = s.slot m := rfl
@[simp] theorem State.refuse_lane (r : Request) (e : Reason) (m : Nat) : (s.refuse r e).lane m = s.lane m := rfl
@[simp] theorem State.refuse_bucket (r : Request) (e : Reason) (m : Nat) : (s.refuse r e).bucket m = s.bucket m := rfl
@[simp] theorem State.refuse_container (r : Request) (e : Reason) (m : Nat) :
    (s.refuse r e).container m = s.container m := rfl
@[simp] theorem State.refuse_openPlace (r : Request) (e : Reason) (m : Nat) :
    (s.refuse r e).openPlace m = s.openPlace m := rfl
@[simp] theorem State.refuse_branch (r : Request) (e : Reason) (m : Nat) : (s.refuse r e).branch m = s.branch m := rfl

/-! ## lessOutstanding -/

@[simp] theorem State.lessOutstanding_pending : (s.lessOutstanding).pending = s.pending := rfl
@[simp] theorem State.lessOutstanding_freeNext : (s.lessOutstanding).freeNext = s.freeNext := rfl
@[simp] theorem State.lessOutstanding_ctl : (s.lessOutstanding).ctl = s.ctl := rfl
@[simp] theorem State.lessOutstanding_link :
    (s.lessOutstanding).link = { s.link with outstanding := s.link.outstanding - 1 } := rfl
@[simp] theorem State.lessOutstanding_slots : (s.lessOutstanding).slots = s.slots := rfl
@[simp] theorem State.lessOutstanding_dataHeld : (s.lessOutstanding).dataHeld = s.dataHeld := rfl
@[simp] theorem State.lessOutstanding_sched : (s.lessOutstanding).sched = s.sched := rfl
@[simp] theorem State.lessOutstanding_lanes : (s.lessOutstanding).lanes = s.lanes := rfl
@[simp] theorem State.lessOutstanding_waitOrder : (s.lessOutstanding).waitOrder = s.waitOrder := rfl
@[simp] theorem State.lessOutstanding_index : (s.lessOutstanding).index = s.index := rfl
@[simp] theorem State.lessOutstanding_place : (s.lessOutstanding).place = s.place := rfl
@[simp] theorem State.lessOutstanding_walker : (s.lessOutstanding).walker = s.walker := rfl
@[simp] theorem State.lessOutstanding_marks : (s.lessOutstanding).marks = s.marks := rfl
@[simp] theorem State.lessOutstanding_monitor : (s.lessOutstanding).monitor = s.monitor := rfl
@[simp] theorem State.lessOutstanding_slot (m : Nat) : (s.lessOutstanding).slot m = s.slot m := rfl
@[simp] theorem State.lessOutstanding_lane (m : Nat) : (s.lessOutstanding).lane m = s.lane m := rfl
@[simp] theorem State.lessOutstanding_bucket (m : Nat) : (s.lessOutstanding).bucket m = s.bucket m := rfl
@[simp] theorem State.lessOutstanding_container (m : Nat) : (s.lessOutstanding).container m = s.container m := rfl
@[simp] theorem State.lessOutstanding_openPlace (m : Nat) : (s.lessOutstanding).openPlace m = s.openPlace m := rfl
@[simp] theorem State.lessOutstanding_branch (m : Nat) : (s.lessOutstanding).branch m = s.branch m := rfl

/-! ## takeCredit -/

@[simp] theorem State.takeCredit_pending (k : Nat) : (s.takeCredit k).pending = s.pending := rfl
@[simp] theorem State.takeCredit_freeNext (k : Nat) : (s.takeCredit k).freeNext = s.freeNext := rfl
@[simp] theorem State.takeCredit_ctl (k : Nat) : (s.takeCredit k).ctl = s.ctl := rfl
@[simp] theorem State.takeCredit_link (k : Nat) :
    (s.takeCredit k).link = { s.link with credit := min Config.creditMax (s.link.credit + k) } := rfl
@[simp] theorem State.takeCredit_slots (k : Nat) : (s.takeCredit k).slots = s.slots := rfl
@[simp] theorem State.takeCredit_dataHeld (k : Nat) : (s.takeCredit k).dataHeld = s.dataHeld := rfl
@[simp] theorem State.takeCredit_sched (k : Nat) : (s.takeCredit k).sched = s.sched := rfl
@[simp] theorem State.takeCredit_lanes (k : Nat) : (s.takeCredit k).lanes = s.lanes := rfl
@[simp] theorem State.takeCredit_waitOrder (k : Nat) : (s.takeCredit k).waitOrder = s.waitOrder := rfl
@[simp] theorem State.takeCredit_index (k : Nat) : (s.takeCredit k).index = s.index := rfl
@[simp] theorem State.takeCredit_place (k : Nat) : (s.takeCredit k).place = s.place := rfl
@[simp] theorem State.takeCredit_walker (k : Nat) : (s.takeCredit k).walker = s.walker := rfl
@[simp] theorem State.takeCredit_marks (k : Nat) : (s.takeCredit k).marks = s.marks := rfl
@[simp] theorem State.takeCredit_monitor (k : Nat) : (s.takeCredit k).monitor = s.monitor := rfl
@[simp] theorem State.takeCredit_slot (k : Nat) (m : Nat) : (s.takeCredit k).slot m = s.slot m := rfl
@[simp] theorem State.takeCredit_lane (k : Nat) (m : Nat) : (s.takeCredit k).lane m = s.lane m := rfl
@[simp] theorem State.takeCredit_bucket (k : Nat) (m : Nat) : (s.takeCredit k).bucket m = s.bucket m := rfl
@[simp] theorem State.takeCredit_container (k : Nat) (m : Nat) : (s.takeCredit k).container m = s.container m := rfl
@[simp] theorem State.takeCredit_openPlace (k : Nat) (m : Nat) : (s.takeCredit k).openPlace m = s.openPlace m := rfl
@[simp] theorem State.takeCredit_branch (k : Nat) (m : Nat) : (s.takeCredit k).branch m = s.branch m := rfl

/-! ## withPending -/

@[simp] theorem State.withPending_pending (cs : List Instr) : (s.withPending cs).pending = cs := rfl
@[simp] theorem State.withPending_freeNext (cs : List Instr) : (s.withPending cs).freeNext = s.freeNext := rfl
@[simp] theorem State.withPending_ctl (cs : List Instr) : (s.withPending cs).ctl = s.ctl := rfl
@[simp] theorem State.withPending_link (cs : List Instr) : (s.withPending cs).link = s.link := rfl
@[simp] theorem State.withPending_slots (cs : List Instr) : (s.withPending cs).slots = s.slots := rfl
@[simp] theorem State.withPending_dataHeld (cs : List Instr) : (s.withPending cs).dataHeld = s.dataHeld := rfl
@[simp] theorem State.withPending_sched (cs : List Instr) : (s.withPending cs).sched = s.sched := rfl
@[simp] theorem State.withPending_lanes (cs : List Instr) : (s.withPending cs).lanes = s.lanes := rfl
@[simp] theorem State.withPending_waitOrder (cs : List Instr) : (s.withPending cs).waitOrder = s.waitOrder := rfl
@[simp] theorem State.withPending_index (cs : List Instr) : (s.withPending cs).index = s.index := rfl
@[simp] theorem State.withPending_place (cs : List Instr) : (s.withPending cs).place = s.place := rfl
@[simp] theorem State.withPending_walker (cs : List Instr) : (s.withPending cs).walker = s.walker := rfl
@[simp] theorem State.withPending_marks (cs : List Instr) : (s.withPending cs).marks = s.marks := rfl
@[simp] theorem State.withPending_monitor (cs : List Instr) : (s.withPending cs).monitor = s.monitor := rfl
@[simp] theorem State.withPending_slot (cs : List Instr) (m : Nat) : (s.withPending cs).slot m = s.slot m := rfl
@[simp] theorem State.withPending_lane (cs : List Instr) (m : Nat) : (s.withPending cs).lane m = s.lane m := rfl
@[simp] theorem State.withPending_bucket (cs : List Instr) (m : Nat) : (s.withPending cs).bucket m = s.bucket m := rfl
@[simp] theorem State.withPending_container (cs : List Instr) (m : Nat) :
    (s.withPending cs).container m = s.container m := rfl
@[simp] theorem State.withPending_openPlace (cs : List Instr) (m : Nat) :
    (s.withPending cs).openPlace m = s.openPlace m := rfl
@[simp] theorem State.withPending_branch (cs : List Instr) (m : Nat) : (s.withPending cs).branch m = s.branch m := rfl

end Sys2Proof.Machine
end

