-- ==== Sys2Proof/Laws/Tables.lean ====
section
/-! SUPPORT. The laws of the sparse tables: what is written is read back and no other number changes, and every table
operation keeps the canonical form. Reading after writing needs no canonical form; the form matters where tables are
compared as lists. -/

namespace Sys2Proof.Machine

variable {α : Type}

/-! ## Reading after writing -/

theorem tableGet_tablePut (rest : α) (t : Table α) (n : Nat) (v : α) (m : Nat) :
    tableGet rest (tablePut t n v) m = if m = n then v else tableGet rest t m := by
  induction t with
  | nil => simp [tablePut, tableGet, eq_comm]
  | cons p t ih =>
    obtain ⟨k, w⟩ := p
    simp only [tablePut]
    split
    · simp only [tableGet]; grind
    · split
      · subst_vars; simp only [tableGet]; grind
      · simp only [tableGet, ih]; grind

theorem tableGet_tableDrop (rest : α) (t : Table α) (n m : Nat) :
    tableGet rest (tableDrop t n) m = if m = n then rest else tableGet rest t m := by
  induction t with
  | nil => simp [tableDrop, tableGet]
  | cons p t ih =>
    obtain ⟨k, w⟩ := p
    simp only [tableDrop] at ih
    by_cases h : k = n <;> simp only [tableDrop, List.filter_cons, h, tableGet] <;> grind [tableGet]

/-- Writing one number changes that number alone. -/
theorem tableGet_tableSet [DecidableEq α] (rest : α) (t : Table α) (n : Nat) (v : α) (m : Nat) :
    tableGet rest (tableSet rest t n v) m = if m = n then v else tableGet rest t m := by
  unfold tableSet
  split
  · next h => rw [tableGet_tableDrop, h]
  · exact tableGet_tablePut rest t n v m

/-- A value other than the resting one stands in the list. -/
theorem mem_of_tableGet (rest : α) (t : Table α) (n : Nat) (h : tableGet rest t n ≠ rest) :
    (n, tableGet rest t n) ∈ t := by
  induction t with
  | nil => exact absurd rfl h
  | cons p t ih =>
    obtain ⟨k, w⟩ := p
    simp only [tableGet] at h ⊢
    split
    · next e => subst e; simp
    · next e => exact List.mem_cons_of_mem _ (ih (by simpa [tableGet, e] using h))

/-- What holds of every listed value and of the resting one holds of every number's. -/
theorem tableGet_forall {rest : α} {P : α → Prop} {t : Table α} (h : ∀ p ∈ t, P p.2) (h0 : P rest) (n : Nat) :
    P (tableGet rest t n) := by
  induction t with
  | nil => exact h0
  | cons p t ih =>
    obtain ⟨k, v⟩ := p
    simp only [tableGet]
    split
    · exact h (k, v) (by simp)
    · exact ih (fun q hq => h q (List.mem_cons_of_mem _ hq))

theorem tableGet_map (rest : α) (f : α → α) (h : f rest = rest) (t : Table α) (n : Nat) :
    tableGet rest (t.map (fun p => (p.1, f p.2))) n = f (tableGet rest t n) := by
  induction t with
  | nil => simp [tableGet, h]
  | cons p t ih => simp only [List.map_cons, tableGet]; split <;> simp_all

/-! ## Writing twice -/

theorem tablePut_tablePut (t : Table α) (n : Nat) (v w : α) : tablePut (tablePut t n v) n w = tablePut t n w := by
  induction t with
  | nil => simp [tablePut]
  | cons p t ih =>
    obtain ⟨k, u⟩ := p
    simp only [tablePut]
    split
    · simp [tablePut]
    · split
      · simp [tablePut]
      · next h₁ h₂ => simp [tablePut, h₁, h₂, ih]

theorem tableDrop_tablePut (t : Table α) (n : Nat) (v : α) : tableDrop (tablePut t n v) n = tableDrop t n := by
  induction t with
  | nil => simp [tablePut, tableDrop]
  | cons p t ih =>
    obtain ⟨k, u⟩ := p
    simp only [tableDrop] at ih
    simp only [tablePut]
    split
    · simp [tableDrop]
    · split
      · next h => simp [tableDrop, h]
      · next h₁ h₂ => simp_all [tableDrop, List.filter_cons]

/-- Of two writes to one number the second stands, where the first did not remove the listing. -/
theorem tableSet_tableSet [DecidableEq α] (rest : α) (t : Table α) (n : Nat) (v w : α) (h : v ≠ rest) :
    tableSet rest (tableSet rest t n v) n w = tableSet rest t n w := by
  unfold tableSet
  rw [if_neg h]
  split
  · exact tableDrop_tablePut t n v
  · exact tablePut_tablePut t n v w

/-! ## The canonical form -/

theorem mem_tablePut (t : Table α) (n : Nat) (v : α) (p : Nat × α) (h : p ∈ tablePut t n v) : p = (n, v) ∨ p ∈ t := by
  induction t with
  | nil => simpa [tablePut] using h
  | cons q t ih =>
    obtain ⟨k, w⟩ := q
    simp only [tablePut] at h
    split at h
    · simpa using h
    · split at h
      · simp at h; grind
      · simp at h; grind

theorem pairwise_tablePut (t : Table α) (n : Nat) (v : α) (h : t.Pairwise (fun p q => p.1 < q.1)) :
    (tablePut t n v).Pairwise (fun p q => p.1 < q.1) := by
  induction t with
  | nil => simp [tablePut]
  | cons q t ih =>
    obtain ⟨k, w⟩ := q
    have h' := List.pairwise_cons.1 h
    simp only [tablePut]
    split
    · next hk => exact List.pairwise_cons.2 ⟨by grind, h⟩
    · split
      · next hk => exact List.pairwise_cons.2 ⟨by grind, h'.2⟩
      · next h₁ h₂ =>
        refine List.pairwise_cons.2 ⟨fun p hp => ?_, ih h'.2⟩
        rcases mem_tablePut t n v p hp with rfl | hp
        · simp only; omega
        · exact h'.1 p hp

theorem tableWf_iff [DecidableEq α] (rest : α) (t : Table α) :
    tableWf rest t = true ↔ t.Pairwise (fun p q => p.1 < q.1) ∧ ∀ p ∈ t, p.2 ≠ rest := by
  simp [tableWf]

/-- What a table lists after a write is what was written or stood before. -/
theorem mem_tableSet [DecidableEq α] (rest : α) (t : Table α) (n : Nat) (v : α) (p : Nat × α)
    (h : p ∈ tableSet rest t n v) : p = (n, v) ∨ p ∈ t := by
  unfold tableSet at h
  split at h
  · exact .inr (List.mem_filter.1 h).1
  · exact mem_tablePut t n v p h

theorem tableWf_nil [DecidableEq α] (rest : α) : tableWf rest ([] : Table α) = true := rfl

/-- Writing one number keeps the canonical form. -/
theorem tableWf_tableSet [DecidableEq α] (rest : α) (t : Table α) (n : Nat) (v : α) (h : tableWf rest t = true) :
    tableWf rest (tableSet rest t n v) = true := by
  rw [tableWf_iff] at h ⊢
  unfold tableSet
  split
  · exact ⟨h.1.filter _, fun p hp => h.2 p (List.mem_filter.1 hp).1⟩
  · next hv =>
    refine ⟨pairwise_tablePut t n v h.1, fun p hp => ?_⟩
    rcases mem_tablePut t n v p hp with rfl | hp
    · exact hv
    · exact h.2 p hp

/-- Changing every listed value keeps the canonical form, where no value becomes the resting one. -/
theorem tableWf_map [DecidableEq α] (rest : α) (f : α → α) (hf : ∀ v, f v = rest → v = rest) (t : Table α)
    (h : tableWf rest t = true) : tableWf rest (t.map (fun p => (p.1, f p.2))) = true := by
  rw [tableWf_iff] at h ⊢
  refine ⟨List.pairwise_map.2 h.1, fun p hp => ?_⟩
  obtain ⟨q, hq, rfl⟩ := List.mem_map.1 hp
  exact fun e => h.2 q hq (hf _ e)

/-! ## The engine's tables -/

variable (s : State)

@[simp] theorem State.slot_setSlot (n : Nat) (v : Slot) (m : Nat) :
    (s.setSlot n v).slot m = if m = n then v else s.slot m := tableGet_tableSet _ _ _ _ _
@[simp] theorem State.lane_setLane (n : Nat) (v : Lane) (m : Nat) :
    (s.setLane n v).lane m = if m = n then v else s.lane m := tableGet_tableSet _ _ _ _ _
@[simp] theorem State.bucket_setBucket (n : Nat) (v : Bucket) (m : Nat) :
    (s.setBucket n v).bucket m = if m = n then v else s.bucket m := tableGet_tableSet _ _ _ _ _
@[simp] theorem State.container_setContainer (n : Nat) (v : Container) (m : Nat) :
    (s.setContainer n v).container m = if m = n then v else s.container m := tableGet_tableSet _ _ _ _ _
@[simp] theorem State.openPlace_setOpenPlace (n : Nat) (v : Option Nat) (m : Nat) :
    (s.setOpenPlace n v).openPlace m = if m = n then v else s.openPlace m := tableGet_tableSet _ _ _ _ _
@[simp] theorem State.branch_setBranch (n : Nat) (v : Branch) (m : Nat) :
    (s.setBranch n v).branch m = if m = n then v else s.branch m := tableGet_tableSet _ _ _ _ _

/-- A change of every slot that leaves a FREE slot as it is changes what each slot reads as. -/
theorem State.slot_mapSlots (f : Slot → Slot) (h : f Slot.free = Slot.free) (m : Nat) :
    (s.mapSlots f).slot m = f (s.slot m) := tableGet_map _ _ h _ _

/-- The spans of a FREE slot are none, so a change of every span leaves it as it is. -/
theorem Slot.mapSpans_free (f : Span → Span) : Slot.free.mapSpans f = Slot.free := rfl

/-- A change of spans makes no slot FREE that was not. -/
theorem Slot.mapSpans_eq_free (f : Span → Span) (sl : Slot) (h : sl.mapSpans f = Slot.free) : sl = Slot.free := by
  cases sl
  simp only [Slot.mapSpans, Slot.free, Slot.mk.injEq, Option.map_eq_none_iff] at h ⊢
  exact h

end Sys2Proof.Machine
end

