-- ==== Sys2Proof/Laws/Ops.lean ====
section
/-! SUPPORT. What each shared operation does, said once: requests taken and answered, the addressing checks, the
settings clamp, a reset, the transmit arbiter's choice, the scheduler's searches, the lane's scan and the claims on the
port. -/

namespace Sys2Proof.Machine

variable {s : State}

/-! ## Requests and replies -/

theorem headRequest_eq_some {k : ReqKind} {r : Request} :
    s.headRequest k = some r ↔ ∃ rest, s.TakesNow k r rest := by
  unfold State.headRequest State.TakesNow
  cases s.link.requests with
  | nil => simp
  | cons q rest =>
    simp only [List.cons.injEq]
    constructor
    · intro h
      split at h
      · cases h; simp_all
      · cases h
    · rintro ⟨_, ⟨rfl, -⟩, h⟩; simp [h]

theorem State.TakesNow.headRequest {k : ReqKind} {r : Request} {rest : List Request} (h : s.TakesNow k r rest) :
    s.headRequest k = some r := headRequest_eq_some.2 ⟨rest, h⟩

/-- While the engine is held in reset no owner takes a request. -/
theorem headRequest_pinHeld (h : s.ctl.pinHeld = true) (k : ReqKind) : s.headRequest k = none := by
  unfold State.headRequest; split <;> simp [h]

theorem answer_eq {r : Request} {rest : List Request} (h : s.link.requests = r :: rest) (st : Status) (fs : Fields) :
    s.answer r st fs = { s with link := s.replied r rest st fs } := by
  simp [State.answer, State.popRequest, State.pushReply, State.replied, h]

theorem refuse_eq {r : Request} {rest : List Request} (h : s.link.requests = r :: rest) (e : Reason) :
    s.refuse r e = { s with link := s.replied r rest (.refused e) .none } := answer_eq h _ _

/-- R4's table, read the two ways the model and the statements write it. -/
theorem takenIn_iff (k : ReqKind) (st : SlotState) (h : k ∈ takenKinds .active) :
    takenIn k st = true ↔ k ∈ takenKinds st := by
  revert h
  cases k <;> cases st <;> decide

theorem streamCheck_eq_none {r : Request} (h : s.Addressed r) : s.streamCheck r = none := by
  obtain ⟨hd, h1, h2, h3⟩ := h
  have : (s.slot r.stream).state ≠ .free ∧ takenIn r.kind (s.slot r.stream).state = true := by
    revert h3
    cases (s.slot r.stream).state <;> cases r.kind <;> decide
  simp [State.streamCheck, hd, slotInRange, h1, h2, this]

theorem streamCheck_eq_some {r : Request} {e : Reason} (h : s.Misaddressed r e) (hk : r.kind ∈ takenKinds .active) :
    s.streamCheck r = some e := by
  cases h with
  | device h => simp [State.streamCheck, h]
  | range hd h =>
    have : slotInRange r.stream = false := by simp [slotInRange, Config.slotCount]; omega
    simp [State.streamCheck, hd, this]
  | noStream hd h1 h2 h3 => simp [State.streamCheck, hd, slotInRange, h1, h2, h3]
  | slotState hd h1 h2 h3 h4 =>
    have : takenIn r.kind (s.slot r.stream).state = false := by
      cases h : takenIn r.kind (s.slot r.stream).state
      · rfl
      · exact absurd ((takenIn_iff _ _ hk).1 h) h4
    simp [State.streamCheck, hd, slotInRange, h1, h2, h3, this]

/-! ## Received codes -/

theorem ofCode_code (k : ReqKind) : ReqKind.ofCode k.code = some k := by cases k <;> rfl

theorem ofCode_eq_none (n : Nat) (h : n = 0 ∨ 29 < n) : ReqKind.ofCode n = none := by
  unfold ReqKind.ofCode
  split <;> first | rfl | omega

/-! ## Bringing into range -/

theorem clampTo_eq (lo hi v : Nat) (h : lo ≤ hi) : clampTo lo hi v = max lo (min hi v) := by
  unfold clampTo; grind

theorem clampTo_range (lo hi v : Nat) (h : lo ≤ hi) : lo ≤ clampTo lo hi v ∧ clampTo lo hi v ≤ hi := by
  unfold clampTo; grind

theorem clampTo_of_mem (lo hi v : Nat) (h : lo ≤ v) (h' : v ≤ hi) : clampTo lo hi v = v := by
  unfold clampTo; grind

/-! ## Resets -/

/-- A reset leaves every block at the values the manual gives it. -/
theorem resetTo_eq (s : State) (cause : ResetCause) (pin : Bool) : s.resetTo cause pin = s.afterReset cause pin := by
  cases hp : s.ctl.programming <;> cases hc : s.ctl.storeCopy <;>
    simp [State.resetTo, State.afterReset, State.storedAtReset, Ctl.storeAtReset, hp, hc, loadedSettings, State.reset,
      Link.reset, Index.reset, Place.reset]

/-! ## Searches through numbers in order -/

/-- The first number that passes is found, where none before it does. -/
theorem find_range' {p : Nat → Bool} {a c n : Nat} (hn : p n = true) (h1 : a ≤ n) (h2 : n < a + c)
    (h : ∀ m, a ≤ m → m < n → p m = false) : (List.range' a c).find? p = some n := by
  rw [List.find?_range'_eq_some]
  exact ⟨hn, by simp; omega, fun j h1 h2 => by simpa using h j h1 h2⟩

theorem find_range'_none {p : Nat → Bool} {a c : Nat} (h : ∀ m, a ≤ m → m < a + c → p m = false) :
    (List.range' a c).find? p = none := by
  simp only [List.find?_eq_none, List.mem_range'_1]
  intro x hx
  simp [h x hx.1 hx.2]

/-- A search from `a + 1` that wraps from 64 to 1 finds the first number after `a`. -/
theorem find_wrapped {p : Nat → Bool} {a n : Nat} (ha : a ≤ 64) (hn : p n = true) (h1 : 1 ≤ n) (h2 : n ≤ 64)
    (h : ∀ m, 1 ≤ m → m ≤ 64 → p m = true → (n + 127 - a) % 64 ≤ (m + 127 - a) % 64) :
    (List.range' (a + 1) (64 - a) ++ List.range' 1 a).find? p = some n := by
  have key : ∀ m, 1 ≤ m → m ≤ 64 → ¬ (n + 127 - a) % 64 ≤ (m + 127 - a) % 64 → p m = false := by
    intro m h1 h2 h3
    by_contra hh
    exact h3 (h m h1 h2 (by simpa using hh))
  rw [List.find?_append]
  by_cases hc : a < n
  · rw [find_range' hn (by omega) (by omega) (fun m h1 h2 => key m (by omega) (by omega) (by omega))]; rfl
  · rw [find_range'_none (fun m h1 h2 => key m (by omega) (by omega) (by omega)),
      find_range' hn (by omega) (by omega) (fun m h1 h2 => key m (by omega) (by omega) (by omega))]
    rfl

/-! ## The transmit arbiter -/

/-- The oldest notice of a class is the one found. -/
theorem firstOf_eq {c : Nat} {pre post q : List Notice} {n : Notice} (h : q = pre ++ n :: post) (hn : n.cls = c)
    (hp : ∀ m ∈ pre, m.cls ≠ c) : firstOf c q = some n := by
  subst h
  have : pre.find? (fun m => m.cls == c) = none := by simpa using hp
  simp [firstOf, List.find?_append, this, hn]

theorem firstOf_eq_none {c : Nat} {q : List Notice} (h : ∀ m ∈ q, m.cls ≠ c) : firstOf c q = none := by
  simpa [firstOf] using h

theorem dropNotice_eq {c : Nat} {pre post q : List Notice} {n : Notice} (h : q = pre ++ n :: post) (hn : n.cls = c)
    (hp : ∀ m ∈ pre, m.cls ≠ c) : dropNotice c q = pre ++ post := by
  subst h
  rw [dropNotice, List.eraseP_append_right]
  · simp [hn]
  · simpa using hp

/-- Class 6 goes in round robin from the stream after the last one served. -/
theorem nextBatch_eq {n : Nat} (h1 : s.link.lastServed ≤ 64) (h2 : 1 ≤ n) (h3 : n ≤ 64)
    (h4 : (s.slot n).madeBatch.isSome = true)
    (h : ∀ m, 1 ≤ m → m ≤ 64 → (s.slot m).madeBatch.isSome = true →
      (n + 127 - s.link.lastServed) % 64 ≤ (m + 127 - s.link.lastServed) % 64) : s.nextBatch = some n :=
  find_wrapped h1 h4 h2 h3 h

/-! ## Slots, branches and containers written twice -/

theorem setSlot_setSlot (n : Nat) (v w : Slot) (h : v ≠ Slot.free) : (s.setSlot n v).setSlot n w = s.setSlot n w := by
  simp [State.setSlot, tableSet_tableSet _ _ _ _ _ h]

theorem setBranch_setBranch (n : Nat) (v w : Branch) (h : v ≠ Branch.fresh) :
    (s.setBranch n v).setBranch n w = s.setBranch n w := by
  simp [State.setBranch, tableSet_tableSet _ _ _ _ _ h]

theorem setContainer_setContainer (n : Nat) (v w : Container) (h : v ≠ Container.free) :
    (s.setContainer n v).setContainer n w = s.setContainer n w := by
  simp [State.setContainer, tableSet_tableSet _ _ _ _ _ h]

/-- A slot whose state is not FREE is not the FREE slot. -/
theorem Slot.ne_free {v : Slot} (h : v.state ≠ .free) : v ≠ Slot.free := fun e => h (by rw [e]; rfl)

/-- A container whose state is not FREE is not the FREE container. -/
theorem Container.ne_free {v : Container} (h : v.state ≠ .free) : v ≠ Container.free := fun e => h (by rw [e]; rfl)

/-! ## The lane's scan -/

/-- The scan takes every byte where none passes a test. -/
theorem scan_noCut {p : Profile} {x : Ctx} {bytes : List Byte} (h : NoCut p x bytes) :
    scan p x bytes = (x.taking p bytes, [], none) := by
  induction bytes generalizing x with
  | nil => rfl
  | cons b t ih =>
    have hb : cutTest p (x.take p b) = none := h [b] (by simp) ⟨t, rfl⟩
    have ht : NoCut p (x.take p b) t := fun pre hp hpre =>
      h (b :: pre) (by simp) (by obtain ⟨u, rfl⟩ := hpre; exact ⟨u, rfl⟩)
    simp only [scan, hb, ih ht]
    rfl

/-- The scan stops after the first byte that passes a test. -/
theorem scan_cut {p : Profile} {x : Ctx} {pre post : List Byte} {b : Byte} {cut : CutReason} (h : NoCut p x pre)
    (hc : cutTest p (x.taking p (pre ++ [b])) = some cut) :
    scan p x (pre ++ b :: post) = (x.taking p (pre ++ [b]), post, some cut) := by
  induction pre generalizing x with
  | nil =>
    have hc : cutTest p (x.take p b) = some cut := hc
    simp only [List.nil_append, scan, hc]
    rfl
  | cons a t ih =>
    have ha : cutTest p (x.take p a) = none := h [a] (by simp) ⟨t, rfl⟩
    have ht : NoCut p (x.take p a) t := fun pre hp hpre =>
      h (a :: pre) (by simp) (by obtain ⟨u, rfl⟩ := hpre; exact ⟨u, rfl⟩)
    simp only [List.cons_append, scan, ha, ih ht hc]
    rfl

/-! ## Marks -/

/-- Where the mark is not SEALING, nothing closes and nothing completes. -/
theorem checkMark_eq_self {n : Nat} (h : (s.slot n).mark.phase ≠ .sealing) : s.checkMark n = s := by
  have : (s.slot n).sealReady = false := by simp [Slot.sealReady, h]
  simp [State.checkMark, this, Slot.completable]

theorem checkMarks_eq_self (h : ∀ n, (s.slot n).mark.phase ≠ .sealing) (ns : List Nat) : s.checkMarks ns = s := by
  induction ns with
  | nil => rfl
  | cons n ns ih => simp [State.checkMarks, checkMark_eq_self (h n), ih]

/-! ## Claims on the port -/

theorem claimFrom_eq_some {inflight ahead : List Nat} {k i : Nat} {qs : List QLookup} :
    claimFrom inflight ahead k qs = some i →
      k ≤ i ∧ ∃ q, qs[i - k]? = some q ∧ q.state = .pending ∧ q.lk.bucket ∉ ahead ∧ q.lk.bucket ∉ inflight ∧
        ∀ j q', j < i - k → qs[j]? = some q' → q'.lk.bucket ≠ q.lk.bucket := by
  induction qs generalizing ahead k with
  | nil => simp [claimFrom]
  | cons q t ih =>
    simp only [claimFrom]
    split
    · next h =>
      rintro ⟨⟩
      simp only [List.contains_iff_mem] at h
      exact ⟨le_rfl, q, by simp, h.1, h.2.1, h.2.2, by simp⟩
    · intro h
      obtain ⟨hk, q', h1, h2, h3, h4, h5⟩ := ih h
      refine ⟨by omega, q', ?_, h2, fun hm => h3 (List.mem_cons_of_mem _ hm), h4, fun j q'' hj hq => ?_⟩
      · rw [show i - k = (i - (k + 1)) + 1 by omega]; simpa using h1
      · cases j with
        | zero => simp at hq; subst hq; intro e; exact h3 (by rw [← e]; simp)
        | succ j => exact h5 j q'' (by omega) (by simpa using hq)

/-- A lookup that claims makes the search end at it or before it. -/
theorem claimFrom_of_claims {inflight ahead : List Nat} {k i : Nat} {qs : List QLookup} {q : QLookup}
    (hq : qs[i]? = some q) (hp : q.state = .pending) (ha : q.lk.bucket ∉ ahead) (hf : q.lk.bucket ∉ inflight)
    (hb : ∀ j q', j < i → qs[j]? = some q' → q'.lk.bucket ≠ q.lk.bucket) :
    ∃ j, j ≤ i ∧ claimFrom inflight ahead k qs = some (k + j) := by
  induction qs generalizing ahead k i with
  | nil => simp at hq
  | cons q₀ t ih =>
    simp only [claimFrom]
    split
    · exact ⟨0, by omega, rfl⟩
    · next h0 =>
      cases i with
      | zero => simp at hq; subst hq; simp [hp, ha, hf] at h0
      | succ i =>
        have e : q₀.lk.bucket ≠ q.lk.bucket := hb 0 q₀ (by omega) (by simp)
        obtain ⟨j, h1, h2⟩ := ih (i := i) (ahead := q₀.lk.bucket :: ahead) (k := k + 1) (by simpa using hq)
          (by simp [ha]; exact fun x => e x.symm) (fun j q' hj hq' => hb (j + 1) q' (by omega) (by simpa using hq'))
        exact ⟨j + 1, by omega, by rw [h2]; congr 1; omega⟩

/-- No lookup claims while the head is BLOCKED. -/
theorem headBlocked_eq_false (s : State) :
    headBlocked s.index.lookups = false ↔ ∀ h, s.index.lookups[0]? = some h → h.state ≠ .blocked := by
  cases s.index.lookups <;> simp [headBlocked]

theorem lookupClaim_of_claims {i : Nat} (h : s.LookupClaims i) : ∃ j, j ≤ i ∧ s.lookupClaim = some j := by
  obtain ⟨q, h1, h2, h3, h4, h5⟩ := h
  obtain ⟨j, hj, h⟩ := claimFrom_of_claims (k := 0) h1 h2 (List.not_mem_nil) h4 h3
  exact ⟨j, hj, by simp [State.lookupClaim, (headBlocked_eq_false s).2 h5, h]⟩

/-- The arbiter's choice among the lookups claims. -/
theorem claims_of_lookupClaim {i : Nat} (h : s.lookupClaim = some i) : s.LookupClaims i := by
  unfold State.lookupClaim at h
  split at h
  · cases h
  · next hb =>
    obtain ⟨-, q, h1, h2, -, h4, h5⟩ := claimFrom_eq_some h
    exact ⟨q, by simpa using h1, h2, fun j q' hj => h5 j q' (by omega), h4,
      (headBlocked_eq_false s).1 (by simpa using hb)⟩

/-- The arbiter's choice among the lookups is the claiming one nearest the head. -/
theorem lookupClaim_eq_some {i : Nat} :
    s.lookupClaim = some i ↔ s.LookupClaims i ∧ ∀ j, j < i → ¬ s.LookupClaims j := by
  constructor
  · intro h
    refine ⟨claims_of_lookupClaim h, fun j hj hc => ?_⟩
    obtain ⟨k, hk, h'⟩ := lookupClaim_of_claims hc
    rw [h] at h'; cases h'; omega
  · rintro ⟨h1, h2⟩
    obtain ⟨j, hj, h⟩ := lookupClaim_of_claims h1
    rcases Nat.lt_or_ge j i with hlt | hge
    · exact absurd (claims_of_lookupClaim h) (h2 j hlt)
    · rw [h, show j = i by omega]

theorem lookupClaim_eq_none : s.lookupClaim = none ↔ ∀ j, ¬ s.LookupClaims j := by
  constructor
  · intro h j hc
    obtain ⟨k, -, h'⟩ := lookupClaim_of_claims hc
    rw [h] at h'; cases h'
  · intro h
    cases hc : s.lookupClaim with
    | none => rfl
    | some i => exact absurd (claims_of_lookupClaim hc) (h i)

/-- The lookups that come within the first 16 become PENDING. -/
theorem promote_eq (q : List QLookup) :
    promote q = q.mapIdx (fun i x => if i < 16 ∧ x.state = .queued then { x with state := .pending } else x) := by
  apply List.ext_getElem?
  intro i
  simp only [promote, List.getElem?_append, List.getElem?_mapIdx, List.length_map, List.length_take]
  by_cases h : i < 16 <;> by_cases h' : i < q.length
  · simp [h, h']
  · simp [h, h']; omega
  · simp only [Config.windowMax, h]
    rw [if_neg (by omega), List.getElem?_drop, show 16 + (i - min 16 q.length) = i by omega]
    simp [h']
  · simp [h, h']
    omega

theorem releaseClaim_eq_some {it : ReleaseItem} : s.releaseClaim = some it ↔ s.ReleaseClaims it := by
  unfold State.releaseClaim State.ReleaseClaims
  cases s.index.releases with
  | nil => simp
  | cons a t =>
    simp [ReleaseItem.sound]
    grind

/-! ## Requests handed on -/

/-- R12: no request is handed on while a DATA REFUSED is held. -/
theorem headRequest_of_dataHeld (s : State) (note : Notice) (h : s.dataHeld = some note) (kind : ReqKind) :
    s.headRequest kind = none := by
  have hf : s.ownerFree kind = false := by simp [State.ownerFree, h]
  simp only [State.headRequest, hf]
  cases s.link.requests <;> simp

end Sys2Proof.Machine
end

