-- ==== Sys2Proof/Laws/Canonical.lean ====
section
/-! SUPPORT. Every write to a table keeps every table in its canonical form, and so does everything that writes no
table. -/

namespace Sys2Proof.Machine

variable {s : State}

theorem canonical_setSlot (h : s.Canonical) (n : Nat) (v : Slot) : (s.setSlot n v).Canonical :=
  ⟨tableWf_tableSet _ _ _ _ h.1, h.2⟩

theorem canonical_setLane (h : s.Canonical) (n : Nat) (v : Lane) : (s.setLane n v).Canonical :=
  ⟨h.1, tableWf_tableSet _ _ _ _ h.2.1, h.2.2⟩

theorem canonical_setBucket (h : s.Canonical) (n : Nat) (v : Bucket) : (s.setBucket n v).Canonical :=
  ⟨h.1, h.2.1, tableWf_tableSet _ _ _ _ h.2.2.1, h.2.2.2⟩

/-- A spill entry stands under its own key. -/
theorem canonical_setSpill (h : s.Canonical) (fp : Fp) (len : Nat) (v : Option SpillEntry)
    (hv : ∀ x, v = some x → x.entry.fp = fp ∧ x.entry.length = len) : (s.setSpill fp len v).Canonical :=
  ⟨h.1, h.2.1, h.2.2.1, tableWf_tableSet _ _ _ _ h.2.2.2.1, h.2.2.2.2.1, h.2.2.2.2.2.1, h.2.2.2.2.2.2.1,
    fun p hp x hx => (mem_tableSet none s.index.spill (spillKey fp len) v p hp).elim
      (fun he => by subst he; obtain ⟨rfl, rfl⟩ := hv x hx; rfl) (fun hm => h.2.2.2.2.2.2.2 p hm x hx)⟩

theorem canonical_setContainer (h : s.Canonical) (n : Nat) (v : Container) : (s.setContainer n v).Canonical :=
  ⟨h.1, h.2.1, h.2.2.1, h.2.2.2.1, tableWf_tableSet _ _ _ _ h.2.2.2.2.1, h.2.2.2.2.2⟩

theorem canonical_setOpenPlace (h : s.Canonical) (n : Nat) (v : Option Nat) : (s.setOpenPlace n v).Canonical :=
  ⟨h.1, h.2.1, h.2.2.1, h.2.2.2.1, h.2.2.2.2.1, tableWf_tableSet _ _ _ _ h.2.2.2.2.2.1, h.2.2.2.2.2.2⟩

theorem canonical_setBranch (h : s.Canonical) (n : Nat) (v : Branch) : (s.setBranch n v).Canonical :=
  ⟨h.1, h.2.1, h.2.2.1, h.2.2.2.1, h.2.2.2.2.1, h.2.2.2.2.2.1, tableWf_tableSet _ _ _ _ h.2.2.2.2.2.2.1,
    h.2.2.2.2.2.2.2⟩

/-- A change of every slot keeps the form where it makes no slot FREE. -/
theorem canonical_mapSlots (h : s.Canonical) (f : Slot → Slot) (hf : ∀ v, f v = Slot.free → v = Slot.free) :
    (s.mapSlots f).Canonical := ⟨tableWf_map _ f hf _ h.1, h.2⟩

/-- A change of every span. -/
theorem canonical_mapSpans (h : s.Canonical) (f : Span → Span) : (s.mapSlots (fun v => v.mapSpans f)).Canonical :=
  canonical_mapSlots h _ (fun v => Slot.mapSpans_eq_free f v)

/-- A state with the same tables. -/
theorem canonical_of_eq {t : State} (h : s.Canonical) (h1 : t.slots = s.slots) (h2 : t.lanes = s.lanes)
    (h3 : t.index.buckets = s.index.buckets) (h4 : t.index.spill = s.index.spill)
    (h5 : t.place.containers = s.place.containers) (h6 : t.place.openPlaces = s.place.openPlaces)
    (h7 : t.monitor.branches = s.monitor.branches) : t.Canonical := by
  simpa only [State.Canonical, h1, h2, h3, h4, h5, h6, h7] using h

/-- A reset keeps the form: the tables in index memory stand, and nothing else is listed. -/
theorem canonical_resetTo (h : s.Canonical) (cause : ResetCause) (pin : Bool) : (s.resetTo cause pin).Canonical :=
  ⟨rfl, rfl, h.2.2.1, h.2.2.2.1, h.2.2.2.2.1, rfl, rfl, h.2.2.2.2.2.2.2⟩

/-- The state right after reset holds every table in its canonical form: nothing is listed. -/
theorem canonical_reset : State.reset.Canonical := by
  refine ⟨rfl, rfl, rfl, rfl, rfl, rfl, rfl, fun p hp => ?_⟩
  simp [State.reset, Index.reset] at hp

end Sys2Proof.Machine
end

