-- ==== Sys2Proof/Laws/Effects.lean ====
section
/-! SUPPORT. What the operations shared by several commands do, said once: the placement unit's transitions written
out, a lookup joining the queue, and the parts of the state that reports, hand-ons and seals' closes can change. -/

namespace Sys2Proof.Machine

variable (s : State)

/-! ## The placement unit's transitions -/

/-- Closing to FULL clears the group's open place, counts the container FULL and makes its notice. -/
theorem closeToFull_eq (c g : Nat) (cause : FullCause) (h : (s.container c).group = some g) :
    s.closeToFull c cause = { s with
      place := { ((s.setContainer c { s.container c with state := .full }).setOpenPlace g none).place with
        nFull := s.place.nFull + 1 }
      link := s.link.noticed (.containerFull c g (s.container c).fill (s.container c).entries cause) } := by
  simp only [State.closeToFull, h, Option.getD_some]
  rfl

/-- A container that becomes RECLAIMABLE is counted and makes its notice. -/
theorem reclaim_eq (c : Nat) :
    s.reclaim c = { s with
      place := { (s.setContainer c { s.container c with state := .reclaimable }).place with
        nReclaimable := s.place.nReclaimable + 1 }
      link := s.link.noticed (.containerReclaimable c ((s.container c).group.getD 0) (s.container c).fill) } := rfl

/-- A container that becomes FREE joins the tail of the free list, and a BLOCKED head becomes PENDING. -/
theorem freeContainer_eq (c : Nat) :
    s.freeContainer c = { s with
      place := { (s.setContainer c .free).place with freeList := s.place.freeList ++ [c] }
      index := { s.index with lookups := unblockHead s.index.lookups } } := rfl

/-- The removal of an entry that leaves others only lowers the two counts. -/
theorem account_of_more (c len : Nat) (h : 1 < (s.container c).entries) :
    s.account c len = s.setContainer c
      { s.container c with entries := (s.container c).entries - 1, live := (s.container c).live - len } := by
  have : ¬ (s.container c).entries - 1 = 0 := by omega
  simp [State.account, this]

/-! ## A lookup joins the queue -/

theorem joinLookup_eq (lk : Lookup) : s.joinLookup lk = s.joined lk := rfl

/-! ## Hand-ons, reports -/

/-- What an operation may leave of a state: another branch table or held SURGE, other hand-ons, more notices, never
past 128. -/
def State.Told (s t : State) : Prop :=
  ∃ m hs ns, t = { s with
      monitor := m, marks := { s.marks with handOns := hs }
      link := { s.link with notices := s.link.notices ++ ns } } ∧
    (s.link.notices.length ≤ 128 → s.link.notices.length + ns.length ≤ 128)

theorem State.Told.refl : s.Told s := ⟨s.monitor, s.marks.handOns, [], by simp, by simp⟩

theorem State.Told.trans {s t u : State} (h : s.Told t) (h' : t.Told u) : s.Told u := by
  obtain ⟨m, hs, ns, rfl, h⟩ := h
  obtain ⟨m', hs', ns', rfl, h'⟩ := h'
  exact ⟨m', hs', ns ++ ns', by simp, fun hn => by
    have := h hn
    have := h' (by simpa using this)
    simp at this ⊢
    omega⟩

theorem told_setBranch (b : Nat) (v : Branch) : s.Told (s.setBranch b v) :=
  ⟨_, s.marks.handOns, [], by simp; rfl, by simp⟩

theorem told_enter (n : Notice) (h : s.hasRoom = true) : s.Told (s.enter n) :=
  ⟨s.monitor, s.marks.handOns, [n], rfl, fun _ => by simp [State.hasRoom] at h; simp; omega⟩

/-- A surge enters with its notice, or is held. -/
theorem told_surge (g : Surge) :
    s.Told (if s.hasRoom then s.enterSurge g else { s with monitor := { s.monitor with surgeHeld := some g } }) := by
  split
  · next hr => exact (told_setBranch s _ _).trans (told_enter _ _ hr)
  · exact ⟨_, s.marks.handOns, [], by simp; rfl, by simp⟩

theorem told_monitorTake (h : HandOn) : s.Told (s.monitorTake h) := by
  simp only [State.monitorTake]
  split
  · exact told_setBranch s _ _
  · split
    · exact told_setBranch s _ _
    · split
      · exact (told_setBranch s _ _).trans (told_surge _ _)
      · exact told_setBranch s _ _

theorem told_handOn (h : HandOn) : s.Told (s.handOn h) := by
  simp only [State.handOn]
  split
  · exact ⟨s.monitor, _, [], by simp; rfl, by simp⟩
  · exact told_monitorTake s h

/-- A report that enters its slot changes that slot, makes its notice, and may be handed on. -/
theorem enterReport_told (n : Nat) (rep : Report) (h : s.hasRoom = true) :
    (s.setSlot n { s.slot n with reportSlot := some (rep, 0) }).Told (s.enterReport n rep) := by
  have h' : (s.setSlot n { s.slot n with reportSlot := some (rep, 0) }).hasRoom = true := h
  simp only [State.enterReport]
  split
  · exact (told_enter _ _ h').trans (told_handOn _ _)
  · exact told_enter _ _ h'

/-- Placing a report changes its slot's report places alone, and tells the host processor and the branch monitor. -/
theorem placeReport_told (n : Nat) (rep : Report) :
    ∃ a b c, (s.setSlot n { s.slot n with reportSlot := a, waiting := b, heldReport := c }).Told
      (s.placeReport n rep) := by
  simp only [State.placeReport]
  split
  · exact ⟨_, _, _, State.Told.refl _⟩
  · split
    · next h => exact ⟨_, _, _, enterReport_told s n rep h⟩
    · exact ⟨_, _, _, State.Told.refl _⟩

end Sys2Proof.Machine
end

