-- ==== Sys2Proof/Laws/Release.lean ====
section
/-! SUPPORT. What the release queue's operations do, said once each. -/

namespace Sys2Proof.Machine

variable (s : State)

theorem tallyFor_eq (it : ReleaseItem) : s.tallyFor it = s.headTally it := by
  simp only [State.tallyFor, State.headTally]
  cases s.index.tally <;> rfl

theorem sound_iff (it : ReleaseItem) : it.sound = true ↔ 1 ≤ it.length ∧ it.length ≤ 65536 := by
  simp [ReleaseItem.sound, Config.lengthMax]

/-- RELEASE COMPLETE after an item, when it is the last of its RELEASE. -/
theorem completeRelease_eq (last : Bool) : (if last then s.completeRelease else s) = s.releaseEnded last := by
  cases last
  · cases h : s.index.tally <;> simp [State.releaseEnded]
  · simp only [State.completeRelease, State.releaseEnded, if_true]
    cases s.index.tally with
    | none => rfl
    | some t => by_cases h : s.link.notices.length < 128 <;> simp [State.hasRoom, h, State.enter, Link.noticed]

theorem countItem_missed (it : ReleaseItem) : s.countItem it false false = s.missedAtHead it := by
  simp only [State.countItem, State.missedAtHead, tallyFor_eq]
  rfl

/-- The release queue goes on from the items at its head. -/
theorem advanceReleases_goesOn (items : List ReleaseItem) : s.ReleasesGoOn items (s.advanceReleases items) := by
  induction items generalizing s with
  | nil => exact .empty s
  | cons it later ih =>
    by_cases hc : s.index.completeHeld = true
    · rw [State.advanceReleases, if_pos hc]
      exact .stands s it later hc
    · have hc' : s.index.completeHeld = false := by simpa using hc
      rw [State.advanceReleases, if_neg hc]
      by_cases hs : it.sound = true
      · rw [if_pos hs, tallyFor_eq]
        exact .claims s it later hc' ((sound_iff it).1 hs).1 ((sound_iff it).1 hs).2
      · rw [if_neg hs]
        simp only [countItem_missed, completeRelease_eq]
        refine .missed s _ it later hc' ?_ (ih _)
        have := mt (sound_iff it).2 hs
        omega

/-- And in no other way. -/
theorem releasesGoOn_iff (items : List ReleaseItem) (t : State) :
    s.ReleasesGoOn items t ↔ t = s.advanceReleases items := by
  refine ⟨fun h => ?_, fun h => h ▸ advanceReleases_goesOn s items⟩
  induction h with
  | empty s => rfl
  | stands s it later hc => simp [State.advanceReleases, hc]
  | claims s it later hc h1 h2 => simp [State.advanceReleases, hc, (sound_iff it).2 ⟨h1, h2⟩, tallyFor_eq]
  | missed s t it later hc h _ ih =>
    have hs : it.sound = false := by
      rw [← Bool.not_eq_true, sound_iff]
      omega
    rw [ih]
    simp only [State.advanceReleases, hc, Bool.false_eq_true, if_false, hs, countItem_missed, completeRelease_eq]

end Sys2Proof.Machine
end

