-- ==== Sys2Proof/Laws/Requests.lean ====
section
/-! SUPPORT. What the operations that take no request leave alone, said once each (the request queue, a held DATA
REFUSED, the device state, and whether the placement unit holds a container request), and which takings of a request
can leave the placement unit holding it. -/

namespace Sys2Proof.Machine

/-- Nothing but a container request's own taking lets the placement unit hold one. -/
def State.NoHold (s t : State) : Prop := t.place.held = some .request → s.place.held = some .request

/-- What an operation that takes no request leaves alone. -/
structure State.Aside (s t : State) : Prop where
  requests : t.link.requests = s.link.requests
  data : t.dataHeld = s.dataHeld
  dev : t.ctl.dev = s.ctl.dev
  held : s.NoHold t

variable (s : State)

theorem State.NoHold.refl : s.NoHold s := id
theorem State.NoHold.trans {s t u : State} (h : s.NoHold t) (h' : t.NoHold u) : s.NoHold u := fun x => h (h' x)
theorem State.Aside.refl : s.Aside s := ⟨rfl, rfl, rfl, id⟩
theorem State.Aside.trans {s t u : State} (h : s.Aside t) (h' : t.Aside u) : s.Aside u :=
  ⟨h'.requests.trans h.requests, h'.data.trans h.data, h'.dev.trans h.dev, h.held.trans h'.held⟩

theorem State.NoHold.after {s t u : State} (h' : t.NoHold u) (h : s.NoHold t) : s.NoHold u := h.trans h'

/-- The second step first, so that the state between them is known when the first is checked. -/
theorem State.Aside.after {s t u : State} (h' : t.Aside u) (h : s.Aside t) : s.Aside u := h.trans h'

theorem aside_told {s t : State} (h : s.Told t) : s.Aside t := by
  obtain ⟨m, hs, ns, rfl, -⟩ := h
  exact ⟨rfl, rfl, rfl, id⟩

theorem aside_setSlot (n : Nat) (v : Slot) : s.Aside (s.setSlot n v) := ⟨rfl, rfl, rfl, id⟩
theorem aside_setContainer (n : Nat) (v : Container) : s.Aside (s.setContainer n v) := ⟨rfl, rfl, rfl, id⟩
theorem aside_withIndex (x : Index) : s.Aside { s with index := x } := ⟨rfl, rfl, rfl, id⟩
theorem aside_enter (m : Notice) : s.Aside (s.enter m) := ⟨rfl, rfl, rfl, id⟩
theorem aside_leaveFlight (b : Nat) : s.Aside (s.leaveFlight b) := ⟨rfl, rfl, rfl, id⟩
theorem aside_closeToFull (c : Nat) (cause : FullCause) : s.Aside (s.closeToFull c cause) := ⟨rfl, rfl, rfl, id⟩

theorem aside_placeReport (n : Nat) (rep : Report) : s.Aside (s.placeReport n rep) := by
  obtain ⟨a, b, c, h⟩ := placeReport_told s n rep
  exact (aside_setSlot s n _).trans (aside_told h)

theorem aside_enterReport (n : Nat) (rep : Report) : s.Aside (s.enterReport n rep) := by
  have h : ∀ u : State, u.Aside (if rep.outcome = .clean then u.handOn rep.handOn else u) := fun u => by
    split
    · exact aside_told (told_handOn u _)
    · exact .refl _
  exact State.Aside.after (h _) ⟨rfl, rfl, rfl, id⟩

theorem aside_holdPlace (h : PlaceHold) (hh : h ≠ .request) : s.Aside (s.holdPlace h) :=
  ⟨rfl, rfl, rfl, fun x => absurd (Option.some.inj x) hh⟩

theorem aside_closeSealed (n : Nat) (cs : List Nat) : s.Aside (s.closeSealed n cs) := by
  induction cs generalizing s with
  | nil => exact .refl s
  | cons c cs ih =>
    simp only [State.closeSealed]
    split
    · split
      · exact .refl s
      · split
        · exact State.Aside.trans (t := s.closeToFull c .seal) ⟨rfl, rfl, rfl, id⟩ (ih _)
        · exact aside_holdPlace s _ (by simp)
    · exact ih s

theorem aside_completeMark (n : Nat) : s.Aside (s.completeMark n) := by
  simp only [State.completeMark]
  split
  · exact (aside_setSlot s n _).trans (aside_placeReport _ _ _)
  · exact .refl s

theorem aside_checkMark (n : Nat) : s.Aside (s.checkMark n) := by
  have h : s.Aside (if (s.slot n).sealReady = true then
      s.closeSealed n (match (s.slot n).ended with | some sp => sp.deps | none => []) else s) := by
    split
    · exact aside_closeSealed _ _ _
    · exact .refl s
  have h' : ∀ u : State, u.Aside (if (u.slot n).completable = true then u.completeMark n else u) := fun u => by
    split
    · exact aside_completeMark u n
    · exact .refl u
  exact h.trans (h' _)

theorem aside_checkMarks (ns : List Nat) : s.Aside (s.checkMarks ns) := by
  induction ns generalizing s with
  | nil => exact .refl s
  | cons n ns ih => exact (aside_checkMark s n).trans (ih _)

theorem aside_unholdPlace : s.Aside s.unholdPlace := ⟨rfl, rfl, rfl, fun x => by cases x⟩

theorem aside_abandonSeal (n : Nat) : s.Aside (s.abandonSeal n) := by
  simp only [State.abandonSeal]
  split
  · exact (aside_unholdPlace s).trans (aside_checkMarks _ _)
  · exact .refl s

theorem aside_discardReports (n : Nat) : s.Aside (s.discardReports n) := by
  simp only [State.discardReports]
  exact State.Aside.after (aside_abandonSeal _ n) ⟨rfl, rfl, rfl, id⟩

theorem aside_violate (n : Nat) : s.Aside (s.violate n) := by
  simp only [State.violate]
  split
  · exact (aside_setSlot s n _).trans ((aside_placeReport _ _ _).trans (aside_abandonSeal _ n))
  · exact .refl s

theorem aside_makeBatch (n : Nat) : s.Aside (s.makeBatch n) := by
  simp only [State.makeBatch]
  split
  · exact (aside_setSlot s n _).trans (aside_discardReports _ n)
  · exact aside_setSlot s n _

theorem aside_callBatch (n : Nat) : s.Aside (s.callBatch n) := by
  simp only [State.callBatch]
  split
  · exact .refl s
  · split
    · exact aside_makeBatch s n
    · exact aside_setSlot s n _

theorem aside_foldl {f : State → Nat → State} (h : ∀ (u : State) (l : Nat), u.Aside (f u l)) (ls : List Nat) :
    s.Aside (ls.foldl f s) := by
  induction ls generalizing s with
  | nil => exact .refl s
  | cons l ls ih => exact (h s l).trans (ih _)

theorem aside_freeSlot (n : Nat) : s.Aside (s.freeSlot n) := by
  unfold State.freeSlot
  dsimp only
  refine State.Aside.after (aside_foldl _ (fun u l => ?_) _) ?_
  · split
    · split
      · exact ⟨rfl, rfl, rfl, id⟩
      · exact .refl u
    · exact .refl u
  · exact ⟨rfl, rfl, rfl, id⟩

theorem aside_tryClose (n : Nat) : s.Aside (s.tryClose n) := by
  simp only [State.tryClose]
  split
  · exact State.Aside.after (aside_freeSlot _ n) ⟨rfl, rfl, rfl, id⟩
  · exact .refl s

theorem aside_setRefs (e : IndexEntry) (i : Bool) (b r : Nat) : s.Aside (s.setRefs e i b r) := by
  cases i <;> exact ⟨rfl, rfl, rfl, id⟩

theorem aside_restWalker : s.Aside s.restWalker := by
  simp only [State.restWalker]
  split
  · exact .refl s
  · split
    · exact ⟨rfl, rfl, rfl, id⟩
    · exact .refl s

theorem aside_freeLost (c : Nat) : s.Aside (s.freeLost c) :=
  State.Aside.after (aside_restWalker _) ⟨rfl, rfl, rfl, id⟩

theorem aside_account (c len : Nat) : s.Aside (s.account c len) := by
  simp only [State.account]
  split
  · split
    · exact ⟨rfl, rfl, rfl, id⟩
    · exact State.Aside.after (aside_freeLost _ c) ⟨rfl, rfl, rfl, id⟩
    · exact ⟨rfl, rfl, rfl, id⟩
  · exact ⟨rfl, rfl, rfl, id⟩

theorem aside_dropEntry (e : IndexEntry) (i : Bool) (b : Nat) : s.Aside (s.dropEntry e i b) := by
  unfold State.dropEntry
  refine State.Aside.after (aside_withIndex _ _) ?_
  cases i
  · exact ⟨rfl, rfl, rfl, id⟩
  · exact ⟨rfl, rfl, rfl, id⟩

theorem aside_removeEntry (e : IndexEntry) (i : Bool) (b : Nat) : s.Aside (s.removeEntry e i b) := by
  unfold State.removeEntry
  exact State.Aside.after (aside_account _ _ _) (aside_dropEntry s e i b)

theorem aside_insertEntry (e : IndexEntry) (k : Nat) : s.Aside (s.insertEntry e k) := by
  simp only [State.insertEntry]
  split <;> exact ⟨rfl, rfl, rfl, id⟩

theorem aside_afterFill (n : Nat) : s.Aside (s.afterFill n) := by
  simp only [State.afterFill]
  split
  · exact aside_callBatch s n
  · exact .refl s

theorem aside_finishApply (q : QLookup) (v : Verdict) (d : Option Nat) : s.Aside (s.finishApply q v d) := by
  unfold State.finishApply
  dsimp only
  refine State.Aside.after (aside_checkMark _ _) ?_
  refine State.Aside.after (aside_afterFill _ _) ?_
  refine State.Aside.after (aside_setSlot _ _ _) ?_
  exact ⟨rfl, rfl, rfl, id⟩

theorem aside_block (q : QLookup) (g : Nat) : s.Aside (s.block q g) := by
  simp only [State.block]
  split
  · split
    · exact ⟨rfl, rfl, rfl, id⟩
    · exact State.Aside.after (aside_holdPlace _ _ (by simp)) ⟨rfl, rfl, rfl, id⟩
  · exact ⟨rfl, rfl, rfl, id⟩

theorem aside_applyNew (q : QLookup) (k c : Nat) : s.Aside (s.applyNew q k c) := by
  unfold State.applyNew
  dsimp only
  refine State.Aside.after (aside_finishApply _ _ _ _) ?_
  refine State.Aside.after (aside_insertEntry _ _ _) ?_
  exact aside_setContainer _ _ _

theorem aside_openAndPlace (q : QLookup) (k g : Nat) : s.Aside (s.openAndPlace q k g) := by
  simp only [State.openAndPlace]
  split
  · exact State.Aside.after (aside_applyNew _ _ _ _) ⟨rfl, rfl, rfl, id⟩
  · exact aside_block _ _ _

theorem aside_placeChunk (q : QLookup) (k : Nat) : s.Aside (s.placeChunk q k) := by
  simp only [State.placeChunk]
  split
  · split
    · exact aside_applyNew _ _ _ _
    · split
      · exact State.Aside.after (aside_openAndPlace _ _ _ _) ⟨rfl, rfl, rfl, id⟩
      · exact aside_holdPlace _ _ (by simp)
  · exact aside_openAndPlace _ _ _ _

theorem aside_applyMiss (q : QLookup) (k : Nat) : s.Aside (s.applyMiss q k) := by
  simp only [State.applyMiss]
  split
  · split
    · exact .refl s
    · exact aside_placeChunk _ _ _
  · exact aside_finishApply _ _ _ _

theorem aside_applyDup (q : QLookup) (e : IndexEntry) (i : Bool) (st : ContState) :
    s.Aside (s.applyDup q e i st) := (aside_setRefs _ _ _ _ _).trans (aside_finishApply _ _ _ _)

theorem aside_setHeadResult (q : QLookup) (r : ReadResult) : s.Aside (s.setHeadResult q r) := ⟨rfl, rfl, rfl, id⟩

theorem aside_applyLost (q : QLookup) (e : IndexEntry) (i : Bool) (k : Nat) : s.Aside (s.applyLost q e i k) := by
  unfold State.applyLost
  split
  · exact .refl s
  · split
    · exact aside_holdPlace _ _ (by simp)
    · dsimp only
      refine State.Aside.after (aside_applyMiss _ _ _) ?_
      refine State.Aside.after (aside_setHeadResult _ q _) ?_
      exact aside_removeEntry s _ _ _

theorem aside_applyHead : s.Aside s.applyHead := by
  simp only [State.applyHead]
  repeat' split
  all_goals with_reducible
    first
    | exact aside_applyDup _ _ _ _ _
    | exact aside_applyLost _ _ _ _ _
    | exact aside_applyMiss _ _ _
    | exact .refl s

theorem aside_completeRelease : s.Aside s.completeRelease := by
  simp only [State.completeRelease]
  repeat' split
  all_goals exact ⟨rfl, rfl, rfl, id⟩

theorem aside_countItem (it : ReleaseItem) (f g : Bool) : s.Aside (s.countItem it f g) := by
  cases f <;> exact ⟨rfl, rfl, rfl, id⟩

theorem aside_advanceReleases (rs : List ReleaseItem) : s.Aside (s.advanceReleases rs) := by
  induction rs generalizing s with
  | nil => exact ⟨rfl, rfl, rfl, id⟩
  | cons it rest ih =>
    simp only [State.advanceReleases]
    split
    · exact ⟨rfl, rfl, rfl, id⟩
    · split
      · exact ⟨rfl, rfl, rfl, id⟩
      · refine (aside_countItem s it false false).trans (State.Aside.trans ?_ (ih _))
        split
        · exact aside_completeRelease _
        · exact .refl _

theorem aside_finishItem (b : Nat) (it : ReleaseItem) (f g : Bool) : s.Aside (s.finishItem b it f g) := by
  unfold State.finishItem
  dsimp only
  refine State.Aside.after (aside_advanceReleases _ _) ?_
  generalize hu : State.leaveFlight _ b = u
  have h : s.Aside u := by
    subst hu
    refine State.Aside.after (aside_leaveFlight _ b) ?_
    refine State.Aside.after (aside_withIndex _ _) ?_
    exact aside_countItem _ _ _ _
  split
  · exact h.trans (aside_completeRelease _)
  · exact h

theorem aside_releaseOp : s.Aside s.releaseOp := by
  simp only [State.releaseOp]
  repeat' split
  all_goals with_reducible
    first
    | exact .refl s
    | exact aside_holdPlace _ _ (by simp)
    | exact aside_finishItem _ _ _ _ _
    | exact State.Aside.after (aside_finishItem _ _ _ _ _) (aside_setRefs _ _ _ _ _)
    | exact State.Aside.after (aside_finishItem _ _ _ _ _) (aside_removeEntry _ _ _ _)

theorem aside_sweepEntries (b : Nat) (es : List (IndexEntry × Bool)) : s.Aside (s.sweepEntries b es).1 := by
  induction es generalizing s with
  | nil => exact .refl s
  | cons e es ih =>
    simp only [State.sweepEntries]
    repeat' split
    · exact .refl s
    · exact aside_holdPlace _ _ (by simp)
    · exact (aside_removeEntry s _ _ _).trans (ih _)
    · exact ih s

theorem aside_finishSweep (b : Nat) : s.Aside (s.finishSweep b) := by
  unfold State.finishSweep
  dsimp only
  refine State.Aside.after (aside_restWalker _) ?_
  exact ⟨rfl, rfl, rfl, id⟩

theorem aside_sweepOp : s.Aside s.sweepOp := by
  simp only [State.sweepOp]
  split
  · split
    · exact (aside_sweepEntries s _ _).trans (aside_finishSweep _ _)
    · exact aside_sweepEntries s _ _
  · exact .refl s

theorem aside_takeHandOns (hs : List HandOn) : s.Aside (s.takeHandOns hs) := by
  induction hs generalizing s with
  | nil => exact .refl s
  | cons h t ih =>
    simp only [State.takeHandOns]
    split
    · exact ⟨rfl, rfl, rfl, id⟩
    · exact (aside_told (told_monitorTake s h)).trans (ih _)

theorem aside_reportEnd (l : Nat) (w : Work) (m : Nat) : s.Aside (s.reportEnd l w m) := by
  simp only [State.reportEnd]
  split
  · exact State.Aside.after (aside_callBatch _ _) ⟨rfl, rfl, rfl, id⟩
  · exact ⟨rfl, rfl, rfl, id⟩

theorem aside_reportMark (l : Nat) (w : Work) (m : Nat) : s.Aside (s.reportMark l w m) :=
  State.Aside.after (aside_checkMark _ _) ⟨rfl, rfl, rfl, id⟩

theorem aside_cutMarker (l : Nat) (w : Work) (cut : CutReason) (f : State → State) (h : ∀ u : State, u.Aside (f u)) :
    s.Aside (s.cutMarker l w cut f) := by
  simp only [State.cutMarker]
  repeat' split
  · exact ⟨rfl, rfl, rfl, id⟩
  · exact State.Aside.after (h _) ⟨rfl, rfl, rfl, id⟩
  · exact h s

theorem aside_finishEntry (l n : Nat) (x : Ctx) (k : Nat) : s.Aside (s.finishEntry l n x k) := by
  simp only [State.finishEntry]
  split
  · exact State.Aside.after (aside_callBatch _ _) ⟨rfl, rfl, rfl, id⟩
  · exact ⟨rfl, rfl, rfl, id⟩

theorem aside_pacingMatch (n : Nat) : s.Aside (s.pacingMatch n) := by
  simp only [State.pacingMatch]
  split
  · exact ⟨rfl, rfl, rfl, id⟩
  · exact (aside_setSlot s n _).trans (aside_callBatch _ _)

theorem aside_tickAge (n : Nat) : s.Aside (s.tickAge n) := by
  unfold State.tickAge
  dsimp only
  split
  · exact aside_setSlot s n _
  · exact .refl s

theorem aside_tickPacing (n : Nat) : s.Aside (s.tickPacing n) := by
  unfold State.tickPacing
  dsimp only
  split
  · exact aside_pacingMatch s n
  · split
    · exact .refl s
    · exact aside_setSlot s n _

theorem aside_tickMark (n : Nat) : s.Aside (s.tickMark n) := by
  unfold State.tickMark
  dsimp only
  split
  · exact aside_violate s n
  · split
    · exact .refl s
    · exact aside_setSlot s n _

theorem aside_tickSlot (n : Nat) : s.Aside (s.tickSlot n) := by
  unfold State.tickSlot
  exact (aside_tickAge s n).trans ((aside_tickPacing _ n).trans (aside_tickMark _ n))

theorem aside_tickSlots (ns : List Nat) : s.Aside (s.tickSlots ns) := by
  induction ns generalizing s with
  | nil => exact .refl s
  | cons n ns ih => exact (aside_tickSlot s n).trans (ih _)

theorem aside_batchSent (n : Nat) : s.Aside (s.batchSent n) := by
  unfold State.batchSent
  refine (aside_setSlot s n { s.slot n with madeBatch := none }).trans ?_
  dsimp only
  repeat' split
  · exact aside_tryClose _ _
  · exact aside_makeBatch _ _
  · exact .refl _
  · exact .refl _

theorem aside_afterAbort (n : Nat) : s.Aside (s.afterAbort n) := by
  unfold State.afterAbort
  split
  · exact (aside_discardReports s n).trans (aside_tryClose _ n)
  · split
    · exact aside_callBatch s n
    · exact .refl s

/-! ## Requests taken, and the entry into FAULT -/

variable {s}

theorem noHold_answer (r : Request) (x : Status) (y : Fields) : s.NoHold (s.answer r x y) := id

theorem noHold_takeOpen (r : Request) : s.NoHold (takeOpen r s) := by
  unfold takeOpen; dsimp only; repeat' split
  all_goals exact id

theorem noHold_takeData (r : Request) : s.NoHold (takeData r s) := by
  unfold takeData; dsimp only; repeat' split
  all_goals exact id

theorem noHold_takeMark (r : Request) : s.NoHold (takeMark r s) := by
  unfold takeMark; dsimp only; repeat' split
  all_goals exact id

theorem noHold_takeSeal (r : Request) : s.NoHold (takeSeal r s) := by
  unfold takeSeal; dsimp only; repeat' split
  · exact id
  · exact id
  · refine State.NoHold.after ((aside_checkMark _ _).held) ?_
    exact id

theorem noHold_takeReadReport (r : Request) : s.NoHold (takeReadReport r s) := by
  unfold takeReadReport; dsimp only; repeat' split
  all_goals exact id

theorem noHold_ackReport (r : Request) (o : Report) : s.NoHold (s.ackReport r o) := by
  unfold State.ackReport; dsimp only; split
  · refine State.NoHold.after (noHold_answer _ _ _) ?_
    refine State.NoHold.after (aside_enterReport _ _ _).held ?_
    exact id
  · refine State.NoHold.after (aside_tryClose _ _).held ?_
    exact id

theorem noHold_takeAckReport (r : Request) : s.NoHold (takeAckReport r s) := by
  unfold takeAckReport; dsimp only; repeat' split
  · exact id
  · exact id
  · exact id
  · exact noHold_ackReport _ _

theorem noHold_takeRetime (r : Request) : s.NoHold (takeRetime r s) := by
  unfold takeRetime; dsimp only; repeat' split
  all_goals exact id

theorem noHold_takeSetWeight (r : Request) : s.NoHold (takeSetWeight r s) := by
  unfold takeSetWeight; dsimp only; repeat' split
  all_goals exact id

theorem noHold_takeSetPacing (r : Request) : s.NoHold (takeSetPacing r s) := by
  unfold takeSetPacing; dsimp only; repeat' split
  all_goals exact id

theorem noHold_takeSnapshot (r : Request) : s.NoHold (takeSnapshot r s) := by
  unfold takeSnapshot; repeat' split
  all_goals exact id

theorem noHold_takeClose (r : Request) : s.NoHold (takeClose r s) := by
  unfold takeClose; dsimp only; repeat' split
  all_goals exact id

theorem noHold_takeAbort (r : Request) : s.NoHold (takeAbort r s) := by
  unfold takeAbort; dsimp only; split
  · exact id
  · refine State.NoHold.after ((aside_afterAbort _ _).held) ?_
    exact id

theorem noHold_takeRelease (r : Request) : s.NoHold (takeRelease r s) := by
  unfold takeRelease; dsimp only; repeat' split
  · exact id
  · exact id
  · exact id
  · exact id
  · refine State.NoHold.after ((aside_advanceReleases _ _).held) ?_
    exact id

theorem noHold_takeClearHold (r : Request) : s.NoHold (takeClearHold r s) := by
  unfold takeClearHold; dsimp only; repeat' split
  all_goals exact id

theorem place_foldl (l : List Nat) (s : State) :
    (l.foldl (fun s n => s.setBranch n (s.branch n).resetBaseline) s).place = s.place := by
  induction l generalizing s with
  | nil => rfl
  | cons a l ih => rw [List.foldl, ih]; rfl

theorem noHold_takeResetBaseline (r : Request) : s.NoHold (takeResetBaseline r s) := by
  unfold takeResetBaseline; dsimp only; repeat' split
  · exact id
  · exact id
  · intro h; rw [← place_foldl (baselineList r.payload) s]; exact h

theorem noHold_takeQueryBranch (r : Request) : s.NoHold (takeQueryBranch r s) := by
  unfold takeQueryBranch; dsimp only; repeat' split
  all_goals exact id

theorem noHold_takeQueryContainer (r : Request) : s.NoHold (takeQueryContainer r s) := by
  unfold takeQueryContainer; repeat' split
  all_goals exact id

theorem noHold_takeFree (r : Request) : s.NoHold (takeFree r s) := by
  unfold takeFree; dsimp only; repeat' split
  all_goals exact id

theorem noHold_takeReset (r : Request) : s.NoHold (takeReset r s) := by
  unfold takeReset; dsimp only; repeat' split
  all_goals exact id

theorem noHold_takeSetSetting (r : Request) : s.NoHold (takeSetSetting r s) := by
  unfold takeSetSetting; dsimp only; repeat' split
  all_goals exact id

theorem noHold_takeSave (r : Request) : s.NoHold (takeSaveSettings r s) := by
  unfold takeSaveSettings; dsimp only; repeat' split
  all_goals exact id

theorem noHold_takeDeclare (r : Request) : s.NoHold (takeDeclare r s) := by
  unfold takeDeclare; dsimp only; repeat' split
  all_goals exact id

theorem refuseHeld_no : s.refuseHeld.place.held ≠ some .request := by
  unfold State.refuseHeld
  split
  · have h : (if s.place.held = some PlaceHold.request then none else s.place.held) ≠ some .request := by
      split <;> simp_all
    dsimp only
    split
    · exact h
    · exact h
  · next h => intro x; apply h; simp [State.requestHeld, x]

theorem enterFault_no : s.enterFault.place.held ≠ some .request := by
  unfold State.enterFault
  dsimp only
  split
  · exact refuseHeld_no
  · exact refuseHeld_no

theorem noHold_runSeed (b : Option Nat) (w : SeedWork) (es : List SeedEntry) : s.NoHold (s.runSeed b w es) := by
  induction es generalizing b w with
  | nil => unfold State.runSeed; dsimp only; split <;> exact id
  | cons e es ih =>
    unfold State.runSeed
    split
    · exact fun x => absurd x enterFault_no
    · split
      · exact ih _ _
      · split
        · exact ih _ _
        · exact id

theorem noHold_takeSeed (b : Option Nat) (r : Request) : s.NoHold (takeSeed r b s) := by
  unfold takeSeed; dsimp only; repeat' split
  · exact id
  · exact id
  · exact noHold_runSeed _ _ _

theorem noHold_takeSeedEntry (e : SeedEntry) (k : Nat) : s.NoHold (s.takeSeedEntry e k) := by
  unfold State.takeSeedEntry; dsimp only
  refine State.NoHold.after (aside_setContainer _ _ _).held ?_
  exact (aside_insertEntry s _ _).held

theorem noHold_seedOp (b : Option Nat) : s.NoHold (s.seedOp b) := by
  unfold State.seedOp; dsimp only; repeat' split
  · refine State.NoHold.after (noHold_runSeed _ _ _) ?_
    exact id
  · refine State.NoHold.after (noHold_runSeed _ _ _) ?_
    refine State.NoHold.after (noHold_takeSeedEntry _ _) ?_
    exact id
  · refine State.NoHold.after (noHold_runSeed _ _ _) ?_
    exact id
  · exact id
  · exact id

theorem noHold_reclaimRun (m : Nat) (cs : List (Nat × Container)) : s.NoHold (s.reclaimRun m cs).1 := by
  induction cs generalizing s m with
  | nil => exact id
  | cons c cs ih =>
    obtain ⟨c, k⟩ := c
    unfold State.reclaimRun
    repeat' split
    · refine State.NoHold.after (ih _) ?_
      exact id
    · exact id
    · exact ih _

theorem noHold_enterService (m : Nat) : s.NoHold (s.enterService m) := by
  have h : (s.enterService m).place.held = s.place.held := by
    simp only [State.enterService]
    split <;> simp only [State.answer, State.popRequest, State.pushReply]
  intro x
  rwa [h] at x

theorem noHold_runBegin (m : Nat) (b : Option Nat) : s.NoHold (s.runBegin m b) := by
  have h := noHold_reclaimRun (s := s) m (recordsBefore b s.place.containers)
  unfold State.runBegin
  split
  · next h' => rw [h'] at h; exact h
  · next h' =>
    rw [h'] at h
    split
    · exact fun x => absurd x enterFault_no
    · exact fun x => h (noHold_enterService _ x)

theorem noHold_takeBegin (b : Option Nat) (r : Request) : s.NoHold (takeBeginService r b s) := by
  unfold takeBeginService; split
  · exact id
  · exact noHold_runBegin _ _

theorem noHold_makeDurable (c : Nat) : s.NoHold (s.makeDurable c) := by
  unfold State.makeDurable; dsimp only; split <;> exact id

theorem noHold_makeLost (c : Nat) : s.NoHold (s.makeLost c) := by
  unfold State.makeLost; dsimp only; split
  · refine State.NoHold.after (aside_freeLost _ _).held ?_
    exact id
  · exact id

/-! ## Requests that can be held -/

/-- R96: what taking a container request can do: it is held for a notice's room, the state left as it is, or the
placement unit holds no request after it that it did not hold before. -/
def State.HeldOrTaken (s t : State) : Prop :=
  s.hasRoom = false ∧ s.ctl.dev = .service ∧ t = s.holdPlace .request ∨ s.NoHold t

theorem takeDurable_holds (r : Request) : s.HeldOrTaken (takeDurable r s) := by
  unfold takeDurable
  dsimp only
  split
  · exact .inr id
  · next h0 =>
    split
    · exact .inr id
    · split
      · next h => exact .inl ⟨h.2, by simpa using h0, rfl⟩
      · refine .inr (State.NoHold.after (aside_checkMarks _ _).held ?_)
        refine State.NoHold.after (noHold_answer _ _ _) ?_
        refine State.NoHold.after (t := s.makeDurable _) ?_ (noHold_makeDurable (field r.payload 0 2))
        exact id

theorem takeLost_holds (r : Request) : s.HeldOrTaken (takeLost r s) := by
  unfold takeLost
  dsimp only
  split
  · exact .inr id
  · next h0 =>
    split
    · exact .inr id
    · split
      · next h => exact .inl ⟨h.2, by simpa using h0, rfl⟩
      · refine .inr (State.NoHold.after (aside_checkMarks _ _).held ?_)
        refine State.NoHold.after (noHold_answer _ _ _) ?_
        refine State.NoHold.after (t := s.makeLost _) ?_ (noHold_makeLost (field r.payload 0 2))
        exact id

theorem takeFlush_holds (r : Request) : s.HeldOrTaken (takeFlush r s) := by
  unfold takeFlush
  dsimp only
  split
  · exact .inr id
  · next h0 =>
    split
    · exact .inr id
    · split
      · exact .inr id
      · split
        · refine .inr (State.NoHold.after (noHold_answer _ _ _) ?_)
          exact id
        · next h => exact .inl ⟨by simpa using h, by simpa using h0, rfl⟩

end Sys2Proof.Machine
end

