-- ==== Sys2Proof/Laws/Streams.lean ====
section
/-! SUPPORT. What the operations at a stream's end do, said once each: when the last batch is due, a batch made, the
discard of a stream's reports, and STREAM CLOSED. -/

namespace Sys2Proof.Machine

variable (s : State) (n : Nat)

/-! ## Conditions -/

theorem laneHolds_eq_false : s.laneHolds n = false ↔ ∀ p ∈ s.lanes, ∀ w, p.2.work = some w → w.slot ≠ n := by
  simp only [State.laneHolds, List.any_eq_false]
  refine forall₂_congr fun p _ => ?_
  cases p.2.work <;> simp

theorem lastBatchDue_iff : s.lastBatchDue n = true ↔ s.LastBatchDue n := by
  unfold State.lastBatchDue State.LastBatchDue
  rw [← laneHolds_eq_false]
  cases h : (s.slot n).state <;> simp [h, and_assoc]

theorem not_lastBatchDue_of_active (h : (s.slot n).state = .active) : s.lastBatchDue n = false := by
  simp [State.lastBatchDue, h]

/-! ## Reports discarded -/

theorem reportsDiscarded_eq (sl : Slot) :
    ({ (if sl.mark.phase = .none then sl else sl.endMark) with
        reportSlot := none, waiting := none, heldReport := none } : Slot) = sl.reportsDiscarded := by
  simp only [Slot.reportsDiscarded, Slot.markDropped, Slot.endMark]
  by_cases h : sl.mark.phase = .none
  · simp [h]
  · cases hc : sl.mark.cut <;> simp only [h, if_false] <;> try rfl
    cases he : sl.ended <;> simp [keepEnded, Span.retire] <;> rfl

/-- A seal's close that nothing waits behind is abandoned. -/
theorem abandonSeal_eq (h : s.place.held = some (.seal n) → ∀ m, (s.slot m).mark.phase ≠ .sealing) :
    s.abandonSeal n = { s with
      place := { s.place with held := if s.place.held = some (.seal n) then none else s.place.held } } := by
  unfold State.abandonSeal
  by_cases hp : s.place.held = some (.seal n)
  · rw [if_pos hp, if_pos hp, checkMarks_eq_self (by exact h hp)]; rfl
  · rw [if_neg hp, if_neg hp]

/-- The discard of a stream's reports empties its report places, its mark and its hand-ons. -/
theorem discardReports_eq (h : s.NoSealBehind n) :
    s.discardReports n = { s.discarded n with slots := (s.setSlot n (s.slot n).reportsDiscarded).slots } := by
  simp only [State.discardReports, reportsDiscarded_eq]
  rw [abandonSeal_eq]
  · rfl
  · intro hp m
    by_cases hm : m = n
    · subst hm
      show ((State.setSlot (s.dropHandOns m) m _).slot m).mark.phase ≠ _
      rw [State.slot_setSlot, if_pos rfl]
      simp only [Slot.reportsDiscarded, Slot.markDropped]
      split
      · next h => simp [h]
      · split <;> simp
    · show ((State.setSlot (s.dropHandOns n) n _).slot m).mark.phase ≠ _
      rw [State.slot_setSlot, if_neg hm]
      exact h hp m hm

/-! ## Batches -/

theorem batchMade_eq (sl : Slot) (final aborted : Bool) :
    ({ sl.clearPacing with
        filled := [], madeBatch := some ⟨sl.consumed, final, aborted, sl.filled⟩, due := false
        finalMade := sl.finalMade || final } : Slot) = sl.batchMade final aborted := by
  simp only [Slot.clearPacing, Slot.batchMade]
  cases sl.pendingPacing <;> rfl

/-- A batch that is not the last. -/
theorem makeBatch_of_not_due (h : s.lastBatchDue n = false) :
    s.makeBatch n = s.setSlot n ((s.slot n).batchMade false false) := by
  simp only [State.makeBatch, h, Bool.false_and, Bool.false_eq_true, if_false]
  rw [batchMade_eq]

/-- The last batch of a stream that closes. -/
theorem makeBatch_of_closing (h : s.lastBatchDue n = true) (hs : (s.slot n).state ≠ .aborting) :
    s.makeBatch n = s.setSlot n ((s.slot n).batchMade true false) := by
  have : ((s.slot n).state == .aborting) = false := by simpa using hs
  simp only [State.makeBatch, h, this, Bool.and_false, Bool.false_eq_true, if_false]
  rw [batchMade_eq]

/-- The last batch of an aborted stream discards its reports. -/
theorem makeBatch_of_aborting (h : s.lastBatchDue n = true) (hs : (s.slot n).state = .aborting)
    (hn : s.NoSealBehind n) :
    s.makeBatch n =
      { s.discarded n with slots := (s.setSlot n ((s.slot n).batchMade true true).reportsDiscarded).slots } := by
  simp only [State.makeBatch, h, hs, beq_self_eq_true, Bool.and_true, if_true]
  rw [batchMade_eq, discardReports_eq]
  · simp only [State.slot_setSlot, if_true]
    rw [setSlot_setSlot _ _ _ (Slot.ne_free (by simp [Slot.batchMade, hs]))]
    rfl
  · intro hp m hm
    rw [State.slot_setSlot, if_neg hm]; exact hn hp m hm

theorem callBatch_of_empty (hf : (s.slot n).finalMade = false) (hm : (s.slot n).madeBatch = none) :
    s.callBatch n = s.makeBatch n := by simp [State.callBatch, hf, hm]

theorem callBatch_of_made (hf : (s.slot n).finalMade = false) (hm : (s.slot n).madeBatch ≠ none) :
    s.callBatch n = s.setSlot n { s.slot n with due := true } := by
  have : (s.slot n).madeBatch.isNone = false := by cases h : (s.slot n).madeBatch <;> simp_all
  simp [State.callBatch, hf, this]

/-! ## STREAM CLOSED -/

/-- A slot becomes FREE, when no lane holds its stream. -/
theorem freeSlot_eq (b : Nat) (hb : (s.slot n).branch = some b) (hl : s.laneHolds n = false) :
    s.freeSlot n = { s with
      slots := (s.setSlot n Slot.free).slots
      monitor := (s.setBranch b { s.branch b with bound := none }).monitor } := by
  have hl : ∀ l w, (s.lane l).work = some w → w.slot ≠ n := by
    intro l w hw e
    have hm := mem_of_tableGet Lane.idle s.lanes l (by intro h; simp only [State.lane, h] at hw; cases hw)
    exact (laneHolds_eq_false s n).1 hl _ hm w hw e
  have hf : ∀ (ls : List Nat) (t : State), t.lanes = s.lanes → ls.foldl
      (fun s l =>
        match (s.lane l).work with
        | some w =>
          if w.slot = n then { s.setLane l .idle with waitOrder := s.waitOrder.filter (fun k => k != l) } else s
        | none => s) t = t := by
    intro ls
    induction ls with
    | nil => intros; rfl
    | cons l ls ih =>
      intro t ht
      have : t.lane l = s.lane l := by simp [State.lane, ht]
      simp only [List.foldl_cons, this]
      cases hw : (s.lane l).work with
      | none => simp; exact ih t ht
      | some w => simp [hl l w hw]; exact ih t ht
  simp only [State.freeSlot, hb, Option.getD_some]
  exact hf [1, 2, 3, 4] ((s.setBranch b { s.branch b with bound := none }).setSlot n .free) rfl

/-- STREAM CLOSED enters. -/
theorem tryClose_eq (b : Nat) (hi : s.inService = true) (hc : (s.slot n).closeDue = true)
    (hr : s.link.notices.length < 128) (hb : (s.slot n).branch = some b) (hl : s.laneHolds n = false) :
    s.tryClose n = s.streamClosed n b (s.slot n) := by
  simp only [State.tryClose, hi, hc, State.hasRoom, Config.noticeMax, hr, decide_true, Bool.and_self, if_true]
  rw [freeSlot_eq (s.enter _) n b hb hl]
  simp only [State.streamClosed, closedNotice, hb, Option.getD_some, Link.noticed, State.enter]
  rfl

/-- STREAM CLOSED is not due, or waits for room. -/
theorem tryClose_eq_self (h : (s.slot n).closeDue = false ∨ 128 ≤ s.link.notices.length) : s.tryClose n = s := by
  rcases h with h | h
  · simp [State.tryClose, h]
  · simp [State.tryClose, State.hasRoom, Nat.not_lt.2 h]

end Sys2Proof.Machine
end

