-- ==== Sys2Proof/Laws/Settlement.lean ====
section
/-! SUPPORT. That the shared operations of the mark unit, the branch monitor and the stream table do what the
statements' relations say, said once each: a report placed, a hand-on taken, a seal's close, the settling of marks, a
batch called for, a marker consumed, an apply handed on, the change of an index entry, and a container's DURABLE and
LOST. -/

namespace Sys2Proof.Machine

variable (s : State) (n : Nat)

/-! ## Notices -/

theorem header_code (m : Notice) : m.code = m.header.code := by cases m <;> rfl

theorem header_cls (m : Notice) : m.cls = m.header.cls := by cases m <;> rfl

theorem header_stream (m : Notice) : m.stream = m.header.stream := by cases m <;> rfl

/-! ## Index entries -/

theorem setRefs_eq (e : IndexEntry) (inSpill : Bool) (b refs : Nat) :
    s.setRefs e inSpill b refs = s.recounted e inSpill b refs := by
  cases inSpill <;> simp [State.setRefs, State.recounted, IndexEntry.hasKey]

theorem dropEntry_eq (e : IndexEntry) (inSpill : Bool) (b : Nat) :
    s.dropEntry e inSpill b = s.entryGone e inSpill b := by
  cases inSpill <;> rfl

/-! ## Reports and samples -/

theorem monitorTake_sampled (h : HandOn) : s.Sampled h.branch h.bytes h.fresh (s.monitorTake h) := by
  simp only [State.Sampled, State.monitorTake, Branch.addBytes, sampleOf]
  refine ⟨fun hb => by simp [Config.mib, hb]; rfl, fun hb => ?_⟩
  have hb' : ¬ h.bytes < s.ctl.settings.minSampleMib * Config.mib := Nat.not_lt.2 hb
  simp only [hb', if_false]
  refine ⟨fun hp hc => ?_, fun hp hc => ?_, fun hp hm => ?_, fun hp hm hr => ?_, fun hp hm hr => ?_⟩
  · simp [hp, Branch.coldSample, hc]; rfl
  · simp [hp, Branch.coldSample, hc]; rfl
  · simp [hp, Branch.surgesAt, Nat.not_lt.2 hm]; rfl
  · have hr' : ∀ b v, (s.setBranch b v).hasRoom = true := fun _ _ => decide_eq_true hr
    simp only [hp, Branch.surgesAt, hm, decide_true, if_true, hr']
    simp only [State.enterSurge, State.branch_setBranch, if_true]
    rw [setBranch_setBranch _ _ _ (by simp [Branch.fresh])]
    rfl
  · have hr' : ∀ b v, (s.setBranch b v).hasRoom = false := fun _ _ => decide_eq_false (Nat.not_lt.2 hr)
    simp only [hp, Branch.surgesAt, hm, decide_true, if_true, hr', Bool.false_eq_true, if_false]
    rfl

/-- The monitor's taking leaves the hand-ons with the mark unit alone. -/
theorem marks_monitorTake (h : HandOn) : (s.monitorTake h).marks = s.marks := by
  simp only [State.monitorTake]
  repeat' split
  all_goals simp only [State.enterSurge, State.setBranch, State.enter]

/-- What the monitor does with the hand-ons it is given in an order. -/
theorem takeHandOns_taken (hs : List HandOn) (h : s.marks.handOns = []) : s.HandOnsTaken hs (s.takeHandOns hs) := by
  induction hs generalizing s with
  | nil => exact .empty s
  | cons x hs ih =>
    unfold State.takeHandOns
    split
    · next hg =>
      rw [h]
      exact .waits s x hs (by simpa [Option.isSome_iff_ne_none] using hg)
    · next hg =>
      exact .takes s _ _ x hs (by simpa using hg) (monitorTake_sampled s x) (ih _ (by rw [marks_monitorTake, h]))

theorem nodup_eraseDups (l : List Nat) : l.eraseDups.Nodup := by
  induction h : l.length using Nat.strong_induction_on generalizing l with
  | _ n ih =>
    cases l with
    | nil => simp
    | cons a l =>
      rw [List.eraseDups_cons, List.nodup_cons]
      refine ⟨by simp, ih _ ?_ _ rfl⟩
      have := List.length_filter_le (fun b => !b == a) l
      simp only [List.length_cons] at h
      omega

theorem eraseDups_of_nodup (l : List Nat) (h : l.Nodup) : l.eraseDups = l := by
  induction l with
  | nil => rfl
  | cons a l ih =>
    obtain ⟨ha, hl⟩ := List.nodup_cons.1 h
    rw [List.eraseDups_cons, List.filter_eq_self.2, ih hl]
    intro b hb
    simp only [Bool.not_eq_true', beq_eq_false_iff_ne]
    exact fun e => ha (e ▸ hb)

/-- Every hand-on that waits is given to the monitor once. -/
theorem orderHandOns_perm (order : List Nat) (hs : List HandOn) : (orderHandOns order hs).Perm hs := by
  rw [List.perm_iff_count]
  intro x
  have h : ∀ ns : List Nat, ns.Nodup →
      (ns.flatMap (fun n => hs.filter (fun h => h.stream == n))).count x = if x.stream ∈ ns then hs.count x else 0 := by
    intro ns hn
    induction ns with
    | nil => simp
    | cons n ns ih =>
      obtain ⟨hx, hn⟩ := List.nodup_cons.1 hn
      rw [List.flatMap_cons, List.count_append, ih hn]
      by_cases e : x.stream = n
      · subst e
        rw [List.count_filter (by simp)]
        simp [hx]
      · rw [List.count_eq_zero.2 (by simp [e])]
        simp [e]
  rw [orderHandOns, List.count_append, h _ (nodup_eraseDups order)]
  by_cases hx : x.stream ∈ order
  · rw [List.count_eq_zero.2 (show x ∉ hs.filter _ by simp [hx])]
    simp [hx]
  · rw [List.count_filter (by simp [hx])]
    simp [hx]

/-- Hand-ons of different streams are given in the order in which all their streams are named. -/
theorem orderHandOns_map (hs ws : List HandOn) (hp : hs.Perm ws) (hd : (hs.map HandOn.stream).Nodup) :
    orderHandOns (hs.map HandOn.stream) ws = hs := by
  have h1 : ∀ l : List HandOn, (l.map HandOn.stream).Nodup →
      ∀ h ∈ l, l.filter (fun w => w.stream == h.stream) = [h] := by
    intro l hl
    induction l with
    | nil => simp
    | cons a l ih =>
      rw [List.map_cons, List.nodup_cons] at hl
      have ha : ∀ b ∈ l, b.stream ≠ a.stream := fun b hb e => hl.1 (e ▸ List.mem_map_of_mem hb)
      intro h hh
      rcases List.mem_cons.1 hh with rfl | hh
      · rw [List.filter_cons_of_pos (by simp), List.filter_eq_nil_iff.2 (by simpa using ha)]
      · rw [List.filter_cons_of_neg (by simpa using (ha h hh).symm), ih hl.2 h hh]
  have h2 : ∀ h ∈ hs, ws.filter (fun w => w.stream == h.stream) = [h] := fun h hh =>
    List.perm_singleton.1 (h1 hs hd h hh ▸ (hp.symm.filter _))
  rw [orderHandOns, eraseDups_of_nodup _ hd, List.flatMap_map, List.filter_eq_nil_iff.2, List.append_nil]
  · have h3 : ∀ l : List HandOn, (∀ h ∈ l, h ∈ hs) →
        l.flatMap (fun a => ws.filter (fun h => h.stream == a.stream)) = l := by
      intro l hl
      induction l with
      | nil => rfl
      | cons a l ih =>
        rw [List.flatMap_cons, h2 a (hl a (by simp)), ih (fun h hh => hl h (by simp [hh]))]
        rfl
    exact h3 hs (fun _ h => h)
  · intro a ha
    have := hp.mem_iff.2 ha
    simp only [Bool.not_eq_true', List.contains_eq_mem, decide_eq_false_iff_not, not_not]
    exact List.mem_map_of_mem this

/-- What becomes of a report that has entered its slot. -/
theorem handOn_handedOn (rep : Report) :
    s.HandedOn rep (if rep.outcome = .clean then s.handOn rep.handOn else s) := by
  refine ⟨fun h => by simp [h], fun h h1 h2 => ?_, fun h h' => ?_⟩
  · simp only [h, if_true, State.handOn, h1, h2, Option.isSome_none, List.isEmpty_nil, Bool.not_true, Bool.or_self,
      Bool.false_eq_true, if_false]
    exact monitorTake_sampled s rep.handOn
  · have : (s.monitor.surgeHeld.isSome || !s.marks.handOns.isEmpty) = true := by
      rcases h' with h' | h'
      · cases hs : s.monitor.surgeHeld <;> simp_all
      · cases hs : s.marks.handOns <;> simp_all
    simp only [h, if_true, State.handOn, this]
    rfl

/-- Handing on leaves the requests and the replies alone. -/
theorem handedOn_answered {s t : State} {rep : Report} (h : s.HandedOn rep t) (q : List Request) (p : List Reply) :
    State.HandedOn { s with link := { s.link with requests := q, replies := p } } rep
      { t with link := { t.link with requests := q, replies := p } } := by
  obtain ⟨h1, h2, h3⟩ := h
  refine ⟨fun h => by rw [h1 h], fun h h' h'' => ?_, fun h h' => ?_⟩
  · obtain ⟨a, b⟩ := h2 h h' h''
    refine ⟨fun hb => ?_, fun hb => ?_⟩
    · rw [a hb]; rfl
    · obtain ⟨b1, b2, b3, b4, b5⟩ := b hb
      refine ⟨fun e1 e2 => ?_, fun e1 e2 => ?_, fun e1 e2 => ?_, fun e1 e2 e3 => ?_, fun e1 e2 e3 => ?_⟩
      · rw [b1 e1 e2]; rfl
      · rw [b2 e1 e2]; rfl
      · rw [b3 e1 e2]; rfl
      · rw [b4 e1 e2 e3]; rfl
      · rw [b5 e1 e2 e3]; rfl
  · rw [h3 h h']

theorem enterReport_handedOn (rep : Report) :
    State.HandedOn
      { s with
        slots := (s.setSlot n { s.slot n with reportSlot := some (rep, 0) }).slots
        link := s.link.noticed (.reportReady rep.stream rep.branch rep.id rep.outcome) } rep (s.enterReport n rep) :=
  handOn_handedOn _ rep

theorem placeReport_placed (rep : Report) : s.Placed n rep (s.placeReport n rep) := by
  simp only [State.Placed, State.placeReport]
  refine ⟨fun h => ?_, fun h hr => ?_, fun h hr => ?_⟩
  · have : (s.slot n).reportSlot.isSome = true := by cases hs : (s.slot n).reportSlot <;> simp_all
    simp only [this, if_true]
    rfl
  · simp only [h, Option.isSome_none, Bool.false_eq_true, if_false, State.hasRoom, Config.noticeMax, Nat.not_lt.2 hr,
      decide_false]
    rfl
  · simp only [h, Option.isSome_none, Bool.false_eq_true, if_false, State.hasRoom, Config.noticeMax, hr, decide_true,
      if_true]
    exact enterReport_handedOn s n rep

/-! ## Seals -/

theorem closeToFull_made (c : Nat) (cause : FullCause) : s.closeToFull c cause = s.fullMade c cause := rfl

theorem closeSealed_closes (cs : List Nat) : State.SealCloses n s cs (s.closeSealed n cs) := by
  induction cs generalizing s with
  | nil => exact .done s
  | cons c cs ih =>
    simp only [State.closeSealed]
    split
    · next ho =>
      cases hh : s.place.held with
      | some h => exact .waits s c cs ho (by simp [hh])
      | none =>
        by_cases hr : s.link.notices.length < 128
        · simp only [Option.isSome_none, Bool.false_eq_true, if_false, State.hasRoom, Config.noticeMax, hr,
            decide_true, if_true]
          exact .closes s _ c cs ho hh hr (ih _)
        · simp only [Option.isSome_none, Bool.false_eq_true, if_false, State.hasRoom, Config.noticeMax, hr,
            decide_false]
          exact .holds s c cs ho hh (Nat.not_lt.1 hr)
    · next ho => exact .passes s _ c cs ho (ih s)

theorem slots_closeSealed (cs : List Nat) : (s.closeSealed n cs).slots = s.slots := by
  induction cs generalizing s with
  | nil => rfl
  | cons c cs ih =>
    simp only [State.closeSealed]
    split
    · split
      · rfl
      · split
        · rw [ih]; rfl
        · rfl
    · exact ih s

theorem mkReport_completion (sl : Slot) (sp : Span) :
    mkReport n sl sp (completionOutcome sl sp) sl.mark.timer = sl.completion n sp := by
  have hm : lengthMatchOf sp.start sp.endOff sl.mark.sealLen =
      if sp.endOff = none ∨ sl.mark.sealLen = none then .unknown
      else if sl.mark.sealLen.getD 0 = sp.endOff.getD 0 - sp.start then .matched else .different := by
    cases sp.endOff <;> cases sl.mark.sealLen <;> simp [lengthMatchOf]
  simp only [mkReport, completionOutcome, Slot.completion, hm]

theorem sealReady_iff (sl : Slot) : sl.sealReady = true ↔ ∃ sp, sl.SealDue sp := by
  simp only [Slot.sealReady, Slot.SealDue]
  cases sl.ended <;> simp [and_assoc]

/-- The close or the completion that is due, or nothing. -/
theorem checkMark_settled : s.Settled n (s.checkMark n) := by
  refine ⟨fun sp hd hn => ?_, fun sp hd hn => ?_, fun h => ?_⟩
  · have hr := (sealReady_iff _).2 ⟨sp, hd⟩
    obtain ⟨-, -, he, -⟩ := hd
    have hc : ((s.closeSealed n sp.deps).slot n).completable = false := by
      have : (s.closeSealed n sp.deps).slot n = s.slot n := by simp [State.slot, slots_closeSealed]
      rw [this]
      simp [Slot.completable, he, hn]
    simp only [State.checkMark, hr, if_true, he, hc, Bool.false_eq_true, if_false]
    exact closeSealed_closes s n _
  · have hr := (sealReady_iff _).2 ⟨sp, hd⟩
    obtain ⟨-, -, he, -⟩ := hd
    have hc : (s.slot n).completable = true := by simp [Slot.completable, hr, he, hn]
    simp only [State.checkMark, hr, if_true, he, hn, State.closeSealed, hc, State.completeMark, mkReport_completion]
    exact placeReport_placed _ n _
  · have hr : (s.slot n).sealReady = false := by
      rw [← Bool.not_eq_true, sealReady_iff]
      exact fun ⟨sp, hd⟩ => h sp hd
    simp [State.checkMark, hr, Slot.completable]

theorem checkMarks_settle (ns : List Nat) : s.MarksSettle ns (s.checkMarks ns) := by
  induction ns generalizing s with
  | nil => exact .done s
  | cons n ns ih => exact .settles s _ _ n ns (checkMark_settled s n) (ih _)

theorem checkMarks_thenSettles : s.ThenSettles (s.checkMarks s.slotNumbers) := checkMarks_settle s _

theorem abandonSeal_abandoned : s.SealAbandoned n (s.abandonSeal n) := by
  refine ⟨fun h => ?_, fun h => ?_⟩
  · simp only [State.abandonSeal, h, if_true]
    exact checkMarks_thenSettles s.unholdPlace
  · simp [State.abandonSeal, h]

/-! ## DURABLE and LOST -/

theorem makeDurable_kept (c : Nat) (h : (s.container c).entries ≠ 0) :
    s.makeDurable c = { s with
      place := { (s.setContainer c { s.container c with state := .durable }).place with
        nFull := s.place.nFull - 1 } } := by
  simp only [State.makeDurable, h, if_false]
  rfl

theorem makeDurable_reclaimed (c : Nat) (h : (s.container c).entries = 0) :
    s.makeDurable c = { s with
      place := { (s.setContainer c { s.container c with state := .reclaimable }).place with
        nFull := s.place.nFull - 1, nReclaimable := s.place.nReclaimable + 1 }
      link := s.link.noticed (.containerReclaimable c ((s.container c).group.getD 0) (s.container c).fill) } := by
  simp only [State.makeDurable, State.container, State.setContainer] at h ⊢
  refine (if_pos h).trans ?_
  simp only [reclaim_eq, State.container, State.setContainer, tableGet_tableSet, if_true]
  rw [tableSet_tableSet _ _ _ _ _ (Container.ne_free (by simp))]

theorem makeLost_kept (c : Nat) (h : (s.container c).entries ≠ 0) :
    s.makeLost c = { s with
      place := { (s.setContainer c { s.container c with state := .lost }).place with
        nFull := if (s.container c).state = .full then s.place.nFull - 1 else s.place.nFull
        nLost := s.place.nLost + 1 }
      walker := { s.walker with sweeping := true } } := by
  simp only [State.makeLost, h, if_false]
  rfl

theorem makeLost_freed (c : Nat) (h : (s.container c).entries = 0) :
    s.makeLost c = { s with
      place := { (s.setContainer c .free).place with
        freeList := s.place.freeList ++ [c]
        nFull := if (s.container c).state = .full then s.place.nFull - 1 else s.place.nFull }
      walker := { s.walker with
        sweeping :=
          match s.index.other with
          | some (.sweep _) => s.walker.sweeping
          | _ => if s.place.nLost = 0 then false else s.walker.sweeping }
      index := { s.index with lookups := unblockHead s.index.lookups }
      link := s.link.noticed (.containerFreed c ((s.container c).group.getD 0)) } := by
  simp only [State.makeLost, State.container, State.setContainer] at h ⊢
  refine (if_pos h).trans ?_
  simp only [State.freeLost, freeContainer_eq, State.restWalker, State.enter, State.container, State.setContainer,
    tableGet_tableSet, if_true]
  rw [tableSet_tableSet _ _ _ _ _ (Container.ne_free (by simp))]
  simp only [Nat.add_sub_cancel]
  cases s.index.other with
  | none => by_cases hl : s.place.nLost = 0 <;> simp [hl, Link.noticed]
  | some op => cases op <;> by_cases hl : s.place.nLost = 0 <;> simp [hl, Link.noticed]

theorem dropDep_eq (c : Nat) (sp : Span) :
    Span.dropDep c sp =
      if sp.retired = false ∧ c ∈ sp.deps then { sp with deps := sp.deps.filter (fun d => d != c) } else sp := by
  simp [Span.dropDep, Span.holds]

theorem taintDep_eq (c : Nat) (sp : Span) :
    Span.taintDep c sp =
      if sp.retired = false ∧ c ∈ sp.deps then
        { sp with
          deps := sp.deps.filter (fun d => d != c), tainted := true, lostDeps := min 65535 (sp.lostDeps + 1) }
      else sp := by
  simp [Span.taintDep, Span.holds, satAdd]

/-! ## Batches -/

theorem discardReports_gone : s.ReportsGone n (s.discardReports n) := by
  simp only [State.discardReports, reportsDiscarded_eq]
  exact abandonSeal_abandoned _ n

theorem callBatch_calls : s.CallsBatch n (s.callBatch n) := by
  refine ⟨fun h => by simp [State.callBatch, h], fun h hm => ?_, fun h hm => ⟨fun hd => ?_, fun hd hs => ?_,
    fun hd hs => ?_⟩⟩
  · rw [callBatch_of_made s n h hm]; rfl
  · rw [← lastBatchDue_iff, Bool.not_eq_true] at hd
    rw [callBatch_of_empty s n h hm, makeBatch_of_not_due s n hd]; rfl
  · rw [callBatch_of_empty s n h hm, makeBatch_of_closing s n ((lastBatchDue_iff s n).2 hd) (by simp [hs])]; rfl
  · rw [callBatch_of_empty s n h hm]
    simp only [State.makeBatch, (lastBatchDue_iff s n).2 hd, hs, beq_self_eq_true, Bool.and_true, if_true]
    rw [batchMade_eq]
    exact discardReports_gone _ n

theorem lastBatch_called : s.LastCalled n (if s.lastBatchDue n then s.callBatch n else s) := by
  refine ⟨fun h => ?_, fun h => ?_⟩
  · rw [if_pos ((lastBatchDue_iff s n).2 h)]; exact callBatch_calls s n
  · rw [if_neg (mt (lastBatchDue_iff s n).1 h)]

theorem afterFill_calls : s.FillCalls n (s.afterFill n) := by
  have : (s.lastBatchDue n || (s.slot n).atThreshold) = true ↔
      s.LastBatchDue n ∨ ∃ th, (s.slot n).threshold = some th ∧ th ≤ (s.slot n).filled.length := by
    rw [Bool.or_eq_true, lastBatchDue_iff, Slot.atThreshold]
    cases (s.slot n).threshold <;> simp
  refine ⟨fun h => ?_, fun h => ?_⟩
  · rw [State.afterFill, if_pos (this.2 h)]; exact callBatch_calls s n
  · rw [State.afterFill, if_neg (mt this.1 h)]

/-! ## Markers -/

theorem startSpan_cut (sl : Slot) (sp : Span) (m : Nat) (h : sl.current = some sp) :
    sl.startSpan m = sl.spanCut sp m := by
  simp only [Slot.startSpan, h, Slot.spanCut]
  by_cases hp : sl.mark.phase = .none
  · simp only [hp, if_true, true_and, keepEnded]
    rfl
  · simp only [hp, if_false, false_and]
    rfl

theorem reportMark_consumed (l : Nat) (w : Work) (m : Nat) (h : (s.slot w.slot).current ≠ none) :
    s.MarkConsumed l w m (s.reportMark l w m) := by
  obtain ⟨sp, hsp⟩ := Option.ne_none_iff_exists'.1 h
  refine ⟨sp, hsp, ?_⟩
  rw [← startSpan_cut _ _ _ hsp]
  exact checkMark_settled _ w.slot

theorem reportEnd_consumed (l : Nat) (w : Work) (m : Nat) : s.EndConsumed l w m (s.reportEnd l w m) :=
  lastBatch_called _ w.slot

/-! ## Applies -/

theorem applied_decided (sl : Slot) (number : Nat) (v : Verdict) (dep : Option Nat) :
    sl.applied number v dep = sl.decided number v dep := by
  have hs : Span.applied v dep = fun sp => sp.decided v dep := by
    funext sp
    simp only [Span.applied, Span.decided]
    by_cases hr : sp.retired = true
    · simp [hr]
    · simp only [hr, Bool.false_eq_true, if_false, Span.mk.injEq, true_and, and_true]
      refine ⟨?_, ?_⟩
      · simp only [Counters.count, Counters.raised]
        cases v.kind <;> rfl
      · cases dep with
        | none => simp [addDep]
        | some c => by_cases hc : c ∈ sp.deps <;> simp [addDep, hc]
  have ht : sl.totals.count v.kind v.length = sl.totals.raised v.kind v.length := by
    simp only [Totals.count, Totals.raised]
    cases v.kind <;> rfl
  simp only [Slot.applied, Slot.decided, Slot.onSpan, Slot.mapSpans, hs, ht]
  congr 1
  cases sl.ended with
  | none => rfl
  | some sp =>
    simp only [Option.map_some, Option.bind_some, keepEnded, Option.filter_some]
    generalize (if sp.number = number then sp.decided v dep else sp) = x
    cases x.retired <;> by_cases h : x.outstanding = 0 <;> simp [h]

/-- An apply's outcome handed on: the lookup has left the queue and the slot is as decided; the batch, then the mark. -/
theorem finishApply_appliedTo (q : QLookup) (v : Verdict) (dep : Option Nat) :
    State.AppliedTo
      ((s.popLookup q).setSlot q.lk.slot ((s.slot q.lk.slot).decided q.lk.span v dep)) q.lk.slot
      (s.finishApply q v dep) := by
  simp only [State.finishApply]
  rw [applied_decided]
  exact ⟨_, afterFill_calls _ _, checkMark_settled _ _⟩

end Sys2Proof.Machine
end

