-- ==== Sys2Proof/Laws/Startup.lean ====
section
/-! SUPPORT. What the controller's long operations do, said once each: the entry into FAULT with a request held or
worked, a SEED worked to its next claim or its end, and BEGIN SERVICE worked as far as there is room. -/

namespace Sys2Proof.Machine

variable (s : State)

/-! ## The entry into FAULT -/

theorem enterFault_of_held {r : Request} {rest : List Request} (h : s.link.requests = r :: rest)
    (hh : s.requestHeld = true) : s.enterFault = s.faulted r rest := by
  simp only [State.enterFault, State.refuseHeld, hh, if_true, h]
  rw [refuse_eq (rest := rest) (by exact h)]
  by_cases hn : s.link.notices.length < 128 <;>
    simp [State.hasRoom, State.replied, Config.noticeMax, hn, State.enter, State.faulted]

/-! ## SEED -/

theorem seedContainerBad_iff (e : SeedEntry) : s.seedContainerBad e = true ↔ s.BadContainer e := by
  simp [State.seedContainerBad, State.BadContainer]

theorem seedFieldBad_iff (e : SeedEntry) : s.seedFieldBad e = true ↔ s.BadField e := by
  simp [State.seedFieldBad, State.BadField, Config.lengthMax, or_assoc]

/-- A SEED goes on: its bad entries are counted, and then it claims the port, ends, or meets an error. -/
theorem runSeed_goesOn {r : Request} {rest : List Request} (h : s.link.requests = r :: rest) (bad : Option Nat)
    (w : SeedWork) (es : List SeedEntry) : s.SeedGoesOn r rest bad w es (.next (s.runSeed bad w es)) := by
  intro pre
  induction pre generalizing bad w es with
  | nil =>
    intro post he _
    obtain rfl : es = post := he
    refine ⟨fun hp hb => ?_, fun e later hp => ⟨fun h1 h2 => ?_, fun h1 => ?_⟩⟩
    · subst hp
      simp only [State.runSeed, h]
      rw [answer_eq (rest := rest) (by exact h)]
      rfl
    · subst hp
      have h3 : bad ≠ some 0 := fun hc => absurd (h2 0 hc) (by simp)
      rw [not_or] at h1
      have h4 : s.seedContainerBad e = false := by rw [← Bool.not_eq_true, seedContainerBad_iff]; exact h1.1
      have h5 : s.seedFieldBad e = false := by rw [← Bool.not_eq_true, seedFieldBad_iff]; exact h1.2
      simp [State.runSeed, h3, h4, h5, State.enterFlight]
    · subst hp
      simp only [List.length_nil] at h1
      simp only [State.runSeed, h1, if_true]
      rw [enterFault_of_held _ (rest := rest) (by exact h) (by simp [State.requestHeld])]
      rfl
  | cons a pre ih =>
    intro post he ha
    obtain rfl : es = a :: (pre ++ post) := he
    let counted := fun l : List SeedEntry => (l.filter (fun e => decide (s.BadContainer e))).length
    obtain ⟨w', hb, e1, e2, e3, e4, e5⟩ : ∃ w' : SeedWork,
        (bad ≠ some 0 →
          s.runSeed bad w (a :: (pre ++ post)) = s.runSeed (bad.map (· - 1)) w' (pre ++ post)) ∧
        w'.taken = w.taken ∧
        w'.field + (pre.length - counted pre) = w.field + ((a :: pre).length - counted (a :: pre)) ∧
        w'.container + counted pre = w.container + counted (a :: pre) ∧ w'.duplicate = w.duplicate ∧
        w'.room = w.room := by
      have hle : counted pre ≤ pre.length := List.length_filter_le _ _
      by_cases h1 : s.BadContainer a
      · have hd : decide (s.BadContainer a) = true := decide_eq_true h1
        have hc : counted (a :: pre) = counted pre + 1 := by simp only [counted, List.filter_cons, hd]; rfl
        refine ⟨{ w with container := w.container + 1 }, fun h0 => ?_, rfl, ?_, ?_, rfl, rfl⟩
        · simp only [State.runSeed, h0, if_false, (seedContainerBad_iff s a).2 h1, if_true]
        · simp only [hc, List.length_cons]; omega
        · simp only [hc]; omega
      · have h4 : s.seedContainerBad a = false := by rw [← Bool.not_eq_true, seedContainerBad_iff]; exact h1
        have h5 : s.seedFieldBad a = true := by
          rw [seedFieldBad_iff]; exact (ha a (by simp)).resolve_left h1
        have hc : counted (a :: pre) = counted pre := by
          simp only [counted, List.filter_cons, decide_eq_false h1]; rfl
        refine ⟨{ w with field := w.field + 1 }, fun h0 => ?_, rfl, ?_, ?_, rfl, rfl⟩
        · simp [State.runSeed, h0, h4, h5]
        · simp only [hc, List.length_cons]; omega
        · simp only [hc]
    have ih' := ih (bad.map (· - 1)) w' (pre ++ post) post rfl (fun e he => ha e (List.mem_cons_of_mem _ he))
    simp only [counted] at e2 e3
    dsimp only at ih'
    rw [e1, e2, e3, e4, e5] at ih'
    refine ⟨fun hp hb' => ?_, fun e later hp => ⟨fun h1 h2 => ?_, fun h1 => ?_⟩⟩
    · rw [hb (fun hc => absurd (hb' 0 hc) (by simp)), ih'.1 hp]
      intro b hb
      obtain ⟨c, rfl, rfl⟩ := Option.map_eq_some_iff.1 hb
      have := hb' c rfl
      simp at this
      omega
    · rw [hb (fun hc => absurd (h2 0 hc) (by simp)), (ih'.2 e later hp).1 h1]
      intro b hb
      obtain ⟨c, rfl, rfl⟩ := Option.map_eq_some_iff.1 hb
      have := h2 c rfl
      simp at this
      omega
    · subst h1
      rw [hb (by simp)]
      exact (ih'.2 e later hp).2 (by simp)

/-! ## BEGIN SERVICE -/

theorem tableGet_of_mem {α : Type} (rest : α) {t : Table α} (h : t.Pairwise (fun p q => p.1 < q.1)) :
    ∀ p ∈ t, tableGet rest t p.1 = p.2 := by
  induction t with
  | nil => simp
  | cons q t ih =>
    intro p hp
    have h' := List.pairwise_cons.1 h
    rcases List.mem_cons.1 hp with rfl | hp
    · simp [tableGet]
    · have := h'.1 p hp
      simp only [tableGet]
      rw [if_neg (by omega)]
      exact ih h'.2 p hp

/-- Writing a number that is listed changes its listing alone. -/
theorem tablePut_of_mem {α : Type} {t : Table α} (h : t.Pairwise (fun p q => p.1 < q.1)) {c : Nat} {k : α} (v : α)
    (hc : (c, k) ∈ t) : tablePut t c v = t.map (fun p => if p.1 = c then (c, v) else p) := by
  induction t with
  | nil => simp at hc
  | cons q t ih =>
    obtain ⟨a, b⟩ := q
    have h' := List.pairwise_cons.1 h
    rcases List.mem_cons.1 hc with e | hc
    · cases e
      simp only [tablePut, lt_irrefl, if_false, if_true, List.map_cons]
      congr 1
      rw [List.map_congr_left (g := id)]
      · simp
      · intro p hp
        have := h'.1 p hp
        rw [if_neg (by simp at this; omega)]
        rfl
    · have := h'.1 _ hc
      simp at this
      simp only [tablePut, List.map_cons]
      rw [if_neg (by omega), if_neg (by omega), if_neg (by omega), ih h'.2 hc]

theorem reclaimed_cons {c : Nat} {k : Container} (hk : s.container c = k) (hd : k.state = .durable)
    (hwf : tableWf Container.free s.place.containers = true) (ps : Table Container) :
    (s.reclaim c).reclaimed ps = s.reclaimed ((c, k) :: ps) := by
  have hm : (c, k) ∈ s.place.containers := by
    rw [← hk]
    exact mem_of_tableGet _ _ _ (by show s.container c ≠ _; rw [hk]; exact Container.ne_free (by simp [hd]))
  have hp := ((tableWf_iff _ _).1 hwf).1
  have e : tableSet Container.free s.place.containers c { k with state := .reclaimable } =
      s.place.containers.map (fun p => if p.1 = c then (c, { k with state := .reclaimable }) else p) := by
    rw [tableSet, if_neg (Container.ne_free (by simp)), tablePut_of_mem hp _ hm]
  rw [reclaim_eq, hk]
  simp only [State.reclaimed, State.setContainer, e, Link.noticed, List.map_map, List.length_cons, List.map_cons,
    List.append_assoc, List.cons_append, List.nil_append]
  congr 2
  · apply List.map_congr_left
    intro q hq
    simp only [Function.comp_apply]
    by_cases hqc : q.1 = c
    · obtain rfl : q = (c, k) := by
        have h1 := tableGet_of_mem Container.free hp q hq
        rw [hqc] at h1
        have h2 : k = q.2 := by rw [← hk]; exact h1
        rw [← hqc, h2]
      simp
    · rw [if_neg hqc]
      by_cases hqp : q ∈ ps
      · simp [hqp]
      · rw [if_neg hqp, if_neg]
        simp [hqp]
        intro h
        exact absurd (by rw [h]) hqc
  · omega

/-- Step 1 of BEGIN SERVICE makes as many containers RECLAIMABLE as there is room for. -/
theorem reclaimRun_eq (made : Nat) (ps : Table Container) (hs : ps.Pairwise (fun p q => p.1 < q.1))
    (hm : ∀ p ∈ ps, s.container p.1 = p.2) (hwf : tableWf Container.free s.place.containers = true) :
    let qs := ps.filter (fun p => decide (p.2.state = .durable ∧ p.2.entries = 0))
    let room := 128 - s.link.notices.length
    s.reclaimRun made ps =
      if room < qs.length then (s.reclaimed (qs.take room), made + room, false)
      else (s.reclaimed qs, made + qs.length, true) := by
  induction ps generalizing s made with
  | nil => simp [State.reclaimRun, State.reclaimed]
  | cons p ps ih =>
    obtain ⟨c, k⟩ := p
    have hs' := List.pairwise_cons.1 hs
    have hk : s.container c = k := hm (c, k) (by simp)
    intro qs room
    generalize hf : (fun p : Nat × Container => decide (p.2.state = .durable ∧ p.2.entries = 0)) = f at qs ih
    have hfk : f (c, k) = decide (k.state = .durable ∧ k.entries = 0) := by rw [← hf]
    by_cases hc : k.state = .durable ∧ k.entries = 0
    · have hq : qs = (c, k) :: ps.filter f := by
        simp only [qs]
        rw [hf]
        simp only [List.filter_cons, hfk, decide_eq_true hc, if_true]
      by_cases hr : s.link.notices.length < 128
      · have hrec := fun l => reclaimed_cons s hk hc.1 hwf l
        simp only [State.reclaimRun, hc, if_true, and_self, State.hasRoom, Config.noticeMax, hr, decide_true]
        rw [ih (s := s.reclaim c) _ hs'.2 ?_ ?_]
        · have e1 : 128 - (s.reclaim c).link.notices.length = room - 1 := by
            simp [State.reclaim, State.enter, room]
            omega
          have h0 : 0 < room := by simp only [room]; omega
          rw [e1, hq]
          simp only [List.length_cons, hrec]
          by_cases hl : room - 1 < (ps.filter f).length
          · rw [if_pos hl, if_pos (by omega)]
            obtain ⟨m, hm⟩ : ∃ m, room = m + 1 := ⟨room - 1, by omega⟩
            rw [hm]
            simp only [List.take_succ_cons, Nat.add_sub_cancel]
            rw [show made + 1 + m = made + (m + 1) by omega]
          · rw [if_neg hl, if_neg (by omega), show ∀ n, made + 1 + n = made + (n + 1) from fun n => by omega]
        · intro q hq
          have := hs'.1 q hq
          rw [← hm q (List.mem_cons_of_mem _ hq), reclaim_eq]
          show tableGet Container.free
            (tableSet Container.free s.place.containers c { s.container c with state := .reclaimable }) q.1 =
              s.container q.1
          rw [tableGet_tableSet, if_neg (by simp at this; omega)]
          rfl
        · rw [reclaim_eq]
          exact tableWf_tableSet Container.free s.place.containers c { s.container c with state := .reclaimable } hwf
      · simp only [State.reclaimRun, hc, if_true, and_self, State.hasRoom, Config.noticeMax, hr, decide_false,
          Bool.false_eq_true, if_false]
        have : room = 0 := by simp only [room]; omega
        rw [this, hq]
        simp [State.reclaimed]
    · have hq : qs = ps.filter f := by
        simp only [qs]
        rw [hf]
        simp only [List.filter_cons, hfk, decide_eq_false hc, Bool.false_eq_true, if_false]
      simp only [State.reclaimRun, hc, if_false]
      rw [ih (s := s) _ hs'.2 (fun q hq => hm q (List.mem_cons_of_mem _ hq)) hwf, hq]

theorem reclaimed_free (ps : List (Nat × Container)) (hps : ∀ p ∈ ps, p.2.state = .durable) (c : Nat) :
    ((s.reclaimed ps).container c).state = .free ↔ (s.container c).state = .free := by
  simp only [State.reclaimed, State.container]
  induction s.place.containers with
  | nil => simp
  | cons q t ih =>
    simp only [List.map_cons]
    by_cases hq : q ∈ ps
    · have := hps q hq
      simp only [if_pos hq, tableGet]
      split
      · simp [this]
      · exact ih
    · simp only [if_neg hq, tableGet]
      split
      · rfl
      · exact ih

/-- BEGIN SERVICE goes on: as many containers as there is room for, and then SERVICE or FAULT. -/
theorem runBegin_goesOn {r : Request} {rest : List Request} (h : s.link.requests = r :: rest) (made : Nat)
    (bad : Option Nat) (hwf : tableWf Container.free s.place.containers = true) :
    s.BeginGoesOn r rest made bad (.next (s.runBegin made bad)) := by
  have hp := ((tableWf_iff _ _).1 hwf).1
  have hps : (recordsBefore bad s.place.containers).Pairwise (fun p q => p.1 < q.1) := by
    unfold recordsBefore
    split
    · exact hp.filter _
    · exact hp
  have hsub : ∀ p ∈ recordsBefore bad s.place.containers, p ∈ s.place.containers := by
    unfold recordsBefore
    split
    · intro p hp
      exact (List.mem_filter.1 hp).1
    · exact fun _ h => h
  have hfil : (recordsBefore bad s.place.containers).filter
      (fun p => decide (p.2.state = .durable ∧ p.2.entries = 0)) = s.reclaimable bad := by
    cases bad with
    | none => simp [recordsBefore, State.reclaimable]
    | some b =>
      simp only [recordsBefore, State.reclaimable, List.filter_filter]
      congr 1
  have key := reclaimRun_eq s made (recordsBefore bad s.place.containers) hps
    (fun p hp' => tableGet_of_mem _ hp p (hsub p hp')) hwf
  simp only [hfil] at key
  refine ⟨fun h1 => ?_, fun h1 h2 => ?_, fun h1 h2 => ?_⟩
  · rw [if_pos h1] at key
    simp only [State.runBegin, key]
    rfl
  · subst h2
    rw [if_neg (by omega)] at key
    have hl : (s.reclaimed (s.reclaimable none)).link.requests = r :: rest := h
    have hfr : (List.range Config.containerCount).filter
        (fun c => ((s.reclaimed (s.reclaimable none)).container c).state == .free) =
        (List.range 65536).filter (fun c => (s.container c).state == .free) := by
      apply List.filter_congr
      intro c _
      have hc := reclaimed_free s (s.reclaimable none)
        (fun p hp => by have := (List.mem_filter.1 hp).2; simp at this; exact this.1) c
      by_cases hx : (s.container c).state = .free
      · simp [hx, hc.2 hx]
      · simp [hx, mt hc.1 hx]
    simp only [State.runBegin, key, State.enterService, Option.isSome_none, Bool.false_eq_true, if_false]
    rw [hfr]
    simp only [hl]
    rw [answer_eq (rest := rest) (by exact hl)]
    rfl
  · rw [if_neg (by omega)] at key
    have : bad.isSome = true := by simpa [Option.isSome_iff_ne_none] using h2
    simp only [State.runBegin, key, this, if_true]
    rw [enterFault_of_held _ (rest := rest) (by exact h) (by simp [State.requestHeld])]
    rfl

end Sys2Proof.Machine
end

