-- ==== Sys2Proof/WellFormed.lean ====
section
/-! DEFINITION. The operand ranges of the commands: slots 1 to 64, lanes 1 to 4, window places 0 to 15, containers
0 to 65,535, places in a list of at most 32 seed entries, a CREDIT count of one byte. A command outside them names
nothing the engine has. -/

namespace Sys2Proof

/-- A stream slot number (R1). -/
def slotOk (n : Nat) : Bool := decide (1 ≤ n ∧ n ≤ Config.slotCount)

/-- A lane number (R33). -/
def laneOk (n : Nat) : Bool := decide (1 ≤ n ∧ n ≤ Config.laneCount)

/-- A container number, where one is given (R78). -/
def containerOk : Option Nat → Bool
  | none => true
  | some k => decide (k < Config.containerCount)

/-- A place in the list of a SEED, where one is given (R164: at most 32 entries). -/
def seedPlaceOk : Option Nat → Bool
  | none => true
  | some i => decide (i < Config.seedMax)

/-- Whether every operand of the command lies in the range its field has. -/
def wellFormed : Instr → Bool
  | .powerOnReset => true
  | .resetPinAssert => true
  | .resetPinRelease => true
  | .indexMemoryClearDone => true
  | .frameReceived _ => true
  | .credit count => decide (count ≤ Config.creditMax)
  | .status => true
  | .reset => true
  | .setSetting => true
  | .saveSettings => true
  | .settingsProgramDone => true
  | .declare _ => true
  | .seed _ bad => seedPlaceOk bad
  | .seedOpDone _ bad => seedPlaceOk bad
  | .beginService _ bad => containerOk bad
  | .openStream => true
  | .data => true
  | .mark => true
  | .seal _ => true
  | .readReport => true
  | .ackReport => true
  | .retime => true
  | .setWeight => true
  | .setPacing => true
  | .snapshot => true
  | .close => true
  | .abort _ => true
  | .durable _ => true
  | .lost _ => true
  | .free _ => true
  | .flush _ => true
  | .queryContainer _ => true
  | .release => true
  | .clearHold => true
  | .resetBaseline => true
  | .queryBranch => true
  | .transmitStart => true
  | .frameTransmitted _ => true
  | .tick _ => true
  | .pacingMatch slot _ => slotOk slot
  | .markTimerLimit slot _ => slotOk slot
  | .grant => true
  | .laneCut lane => laneOk lane
  | .laneLookupJoin _ => true
  | .laneMarkMarker lane _ => laneOk lane
  | .laneEndMarker lane => laneOk lane
  | .laneEntryFinish lane _ => laneOk lane
  | .lookupPortGrant => true
  | .lookupReadDone place _ => decide (place < Config.windowMax)
  | .indexMemoryError => true
  | .lookupApply _ => true
  | .releasePortGrant => true
  | .releaseOpDone _ => true
  | .sweepPortGrant => true
  | .sweepOpDone _ => true
  | .heldReadyEntry => true
  | .heldDataRefusedEntry => true
  | .heldStreamClosedEntry slot => slotOk slot
  | .heldContainerNoticeEntry _ bad => containerOk bad
  | .heldReportEntry slot => slotOk slot
  | .heldAckReport => true
  | .heldSurgeEntry order => order.all slotOk
  | .heldReleaseCompleteEntry => true
  | .heldSettingsSavedEntry => true
  | .pendingFaultEntry => true
  | .pendingLinkFaultEntry => true

end Sys2Proof
end

