-- ==== Sys2Proof/Tests/Slice0.lean ====
section
/-! SUPPORT. The model's own tests: ill-formed commands refused, the manual's worked examples, and for every statement
with hypotheses a named witness that meets them, clause by clause. -/

namespace Sys2Proof.Tests

-- One theorem at a time, so that the kernel's evaluations do not stand in memory together.
set_option Elab.async false

open Sys2Proof Sys2Proof.Machine

/-! ## Ill-formed commands -/

theorem test_wf_slot_zero : wellFormed (.pacingMatch 0 0) = false := by decide
theorem test_wf_slot_65 : wellFormed (.markTimerLimit 65 0) = false := by decide
theorem test_wf_slot_64 : wellFormed (.heldReportEntry 64) = true := by decide
theorem test_wf_closed_slot : wellFormed (.heldStreamClosedEntry 65) = false := by decide
theorem test_wf_lane_zero : wellFormed (.laneCut 0) = false := by decide
theorem test_wf_lane_five : wellFormed (.laneMarkMarker 5 0) = false := by decide
theorem test_wf_end_lane : wellFormed (.laneEndMarker 5) = false := by decide
theorem test_wf_finish_lane : wellFormed (.laneEntryFinish 0 0) = false := by decide
theorem test_wf_credit : wellFormed (.credit 256) = false := by decide
theorem test_wf_window : wellFormed (.lookupReadDone 16 0) = false := by decide
theorem test_wf_container : wellFormed (.beginService 0 (some 65536)) = false := by decide
theorem test_wf_held_container : wellFormed (.heldContainerNoticeEntry 0 (some 65536)) = false := by decide
theorem test_wf_seed_place : wellFormed (.seed 0 (some 32)) = false := by decide
theorem test_wf_seed_op_place : wellFormed (.seedOpDone 0 (some 32)) = false := by decide
theorem test_wf_order : wellFormed (.heldSurgeEntry [1, 65]) = false := by decide

/-! ## Small states -/

/-- A device in SERVICE with nothing in it. -/
def svc : State := { State.reset with ctl := { State.reset.ctl with dev := .service, clearing := false } }
/-- A device in RESTORE. -/
def rst : State := { svc with ctl := { svc.ctl with dev := .restore } }
/-- A device in FAULT. -/
def flt : State := { svc with ctl := { svc.ctl with dev := .fault, faultCause := true } }
/-- The engine held in reset by the pin. -/
def pin : State := { State.reset with ctl := { State.reset.ctl with pinHeld := true, clearing := false } }
/-- A state with `n` notices in its notice queue. -/
def crowd (n : Nat) (s : State) : State :=
  { s with link := { s.link with notices := List.replicate n (.containerFreed 0 0) } }
/-- A request with tag 7. -/
def req (k : ReqKind) (n : Nat) (p : List Byte) : Request := ⟨k, n, 7, p⟩
/-- A state with one request in its queue. -/
def asking (s : State) (k : ReqKind) (n : Nat) (p : List Byte) : State :=
  { s with link := { s.link with requests := [req k n p], outstanding := 1 } }
/-- That request is taken now. -/
abbrev takes (s : State) (k : ReqKind) (n : Nat) (p : List Byte) : Prop :=
  (asking s k n p).TakesNow k (req k n p) []
/-- A narrow profile, for short chunks. -/
def prof : Profile := ⟨2, 3, 4, 1, 1, 0, []⟩
/-- A stream just opened on branch 5 in group 2. -/
def act : Slot :=
  openedSlot 5 2
    { profile := prof, interval := 10, lengthCheck := true, weight := 4, pacing := 2, threshold := 3, clamped := [] }
/-- A device in SERVICE whose slot `n` holds `v`. -/
def at_ (n : Nat) (v : Slot) : State := svc.setSlot n v
/-- A container of group 2. -/
def box (st : ContState) (entries : Nat) : Container := ⟨st, some 2, 4194304, 100, entries, 100 * entries⟩
/-- A span with that dependency set. -/
def span (deps : List Nat) : Span := { Span.fresh 0 0 with deps := deps, endOff := some 40 }
/-- A mark in the phase given, its cut as given. -/
def markIn (phase : MarkPhase) (cut : Bool) : Mark := ⟨phase, some 9, some 40, cut, none, 0, 20000⟩
/-- A stream with a mark. -/
def withMark (phase : MarkPhase) (cut : Bool) (sp : Option Span) : Slot :=
  { act with mark := markIn phase cut, ended := sp }
/-- A report. -/
def rep (o : Outcome) : Report := ⟨1, 5, 9, o, 0, 0, some 40, some 40, .matched, .zero, false, 0, 0, 0, 0⟩
/-- A lookup of 100 bytes of slot 1. -/
def lk (bucket : Nat) : Lookup := ⟨1, 0, 0, 100, BitVec.ofNat 128 (bucket * 4 * 2 ^ 104), .max, bucket⟩
/-- A queued lookup. -/
def ql (st : LookupState) (r : Option ReadResult) (bucket : Nat) : QLookup := ⟨lk bucket, st, r⟩
/-- An index entry of bucket 6 in container 9. -/
def ent (refs : Nat) : IndexEntry := ⟨BitVec.ofNat 128 (6 * 4 * 2 ^ 104), 100, 9, 0, refs⟩
/-- The index changed. -/
def idx (s : State) (f : Index → Index) : State := { s with index := f s.index }
/-- The placement unit changed. -/
def plc (s : State) (f : Place → Place) : State := { s with place := f s.place }
/-- A verdict. -/
def ver : Verdict := ⟨0, 100, .pass, .max, 0, none, none, none⟩
/-- A batch. -/
def bat : Batch := ⟨0, false, false, [ver]⟩

/-! ## The manual's worked examples -/

/-- R53's example: a fingerprint that begins 3A 7F 12 gives bucket 958,404. -/
theorem test_bucketOf : bucketOf (BitVec.ofNat 128 (0x3A7F12 * 2 ^ 104 + 5)) = 958404 := by decide +kernel
/-- The published check value of the nine digits under R150's polynomial. -/
theorem test_checkValue :
    checkValue [0x31, 0x32, 0x33, 0x34, 0x35, 0x36, 0x37, 0x38, 0x39] = 0xCBF43926#32 := by decide +kernel
/-- Chapter 2's example: bytes 00, 01, 02 from H = 0 with seed 0 leave H = 3,428,989,595. -/
theorem test_hash :
    (((Ctx.mk 0 0 0 []).taking (mkProfile 2048 8192 32768 14 12 0) [0, 1, 2]).hash).toNat = 3428989595 := by
  decide +kernel
/-- Chapter 2's example of bands: at L = 32,768 the cut is MAX whatever H is; at 1,500 there is none. -/
theorem test_bands :
    cutTest (mkProfile 2048 8192 32768 14 12 0) ⟨1, 32768, 0, []⟩ = some .max ∧
      cutTest (mkProfile 2048 8192 32768 14 12 0) ⟨0, 1500, 0, []⟩ = none ∧
      cutTest (mkProfile 2048 8192 32768 14 12 0) ⟨4096, 5000, 0, []⟩ = none ∧
      cutTest (mkProfile 2048 8192 32768 14 12 0) ⟨4096, 9000, 0, []⟩ = some .loose := by decide +kernel
/-- Chapter 1's example: Lmin 128, Ltgt 100,000, Lmax 16,384, ks 16, kl 18, seed 7. -/
theorem test_block :
    (profileOfBlock ([0, 0, 0, 128] ++ beBytes 4 100000 ++ beBytes 4 16384 ++ [16, 18, 0, 0, 0, 7])).map
        (fun p => ([p.1.lmin, p.1.ltgt, p.1.lmax, p.1.ks, p.1.kl, p.1.seed], p.2)) =
      some ([256, 16384, 16384, 16, 16, 7], [.lmin, .ltgt, .kl]) := by decide +kernel
/-- R23: a clamped Lmin above the clamped Lmax is refused. -/
theorem test_block_refused :
    profileOfBlock (beBytes 4 16384 ++ beBytes 4 8192 ++ beBytes 4 1024 ++ [14, 12, 0, 0, 0, 0]) = none := by
  decide +kernel
/-- Chapter 8's example: samples 400, 300, 350, 290 leave the branch HOT with baseline 335. -/
theorem test_cold_samples :
    ((((Branch.fresh.coldSample 400).coldSample 300).coldSample 350).coldSample 290) =
      { Branch.fresh with phase := .hot, cold := 0, baseline := 335 } := by decide +kernel
/-- Chapter 8's example: with baseline 335 and margin 256, 591 is ordinary and 600 is not. -/
theorem test_surge :
    ({ Branch.fresh with baseline := 335, margin := some 256 } : Branch).surgesAt 591 = false ∧
      ({ Branch.fresh with baseline := 335, margin := some 256 } : Branch).surgesAt 600 = true := by decide +kernel
/-- Chapter 8's example: 5,242,880 fresh bytes of 33,554,432 are a sample of 160. -/
theorem test_sample : sampleOf 5242880 33554432 = 160 := by decide +kernel

/-! ## Witnesses: the machine as a whole -/

/-- A state with a slot, a container, a branch and a bucket listed. -/
def busy : State :=
  (((at_ 3 act).setContainer 9 (box .full 1)).setBranch 5 { Branch.fresh with bound := some 3 }).setBucket 6
    ⟨[ent 1], 0⟩

theorem witness_StepTakesTheFront :
    (svc.withPending [.tick 0, .grant]).pending = .tick 0 :: [.grant] ∧ svc.pending = [] := by decide +kernel

theorem witness_TablesStayCanonical :
    (busy.withPending [.credit 9]).Canonical ∧ ∃ t, step (busy.withPending [.credit 9]) = .next t :=
  ⟨by decide +kernel, _, rfl⟩

theorem factory_inRange : Settings.factory.InRange := by
  constructor <;> decide +kernel

theorem witness_QueuesStayBounded :
    (busy.withPending [.credit 9]).Bounded ∧ ∃ t, step (busy.withPending [.credit 9]) = .next t := by
  refine ⟨?_, _, rfl⟩
  constructor
  case inputs =>
    exact fun n => tableGet_forall (P := fun v : Slot => v.queue.length ≤ 8) (by decide +kernel) (by decide +kernel) n
  case shares =>
    refine fun n => tableGet_forall (P := fun v : Slot => v.budget ≤ 255 ∧ v.activeWeight ≤ 255 ∧
      ∀ w, v.pendingWeight = some w → w ≤ 255) (fun p hp => ?_) ⟨by decide, by decide, fun _ h => by cases h⟩ n
    have : busy.slots = [(3, act)] := by decide +kernel
    obtain rfl : p = (3, act) := by simpa [State.withPending, this] using hp
    exact ⟨by decide, by decide, fun _ h => by cases h⟩
  case settings => exact factory_inRange
  case stored => exact ⟨nofun, nofun⟩
  all_goals decide +kernel

/-- Lookups to the edge of the window and one beyond it; the first is READING. -/
def windowed : State :=
  idx svc (fun x => { x with
    lookups := ql .reading none 6 :: List.replicate 15 (ql .pending none 7) ++ [ql .queued none 7], inflight := [6] })

theorem witness_InFlightSetStaysExact :
    (windowed.withPending [.lookupReadDone 0 0]).PortInOrder ∧
      ∃ t, step (windowed.withPending [.lookupReadDone 0 0]) = .next t := by
  refine ⟨⟨by decide +kernel, by decide +kernel, by decide +kernel, fun i q h hi => ?_, fun h => (by cases h),
    fun h => (by cases h), fun _ b h => (by cases h), fun h => absurd rfl h⟩, _, rfl⟩
  have hl : i < 17 := (List.getElem?_eq_some_iff.1 h).1
  obtain rfl : i = 16 := by omega
  cases h
  rfl

/-- A stream with 63 places filled, its 64th reserved, 31 containers in its set and one lookup outstanding. -/
def brimming : State :=
  idx (at_ 1 { act with
    profile := some (mkProfile 2048 8192 32768 14 12 0), filled := List.replicate 63 ver, reserved := 1
    current := some { Span.fresh 0 0 with deps := List.range 31, outstanding := 1 } })
    (fun x => { x with lookups := [ql .pending none 6] })

theorem brimming_slot (n : Nat) : brimming.slot n = if n = 1 then brimming.slot 1 else Slot.free := by
  by_cases h : n = 1
  · simp [h]
  · simp [brimming, idx, at_, State.slot, State.setSlot, tableGet_tableSet, h, svc, State.reset, tableGet]

theorem brimming_cutsLeft (n : Nat) : brimming.cutsLeft n = 0 := rfl

theorem brimming_inOrder : brimming.PlacesInOrder where
  verdicts n := by rw [brimming_slot, brimming_cutsLeft]; split <;> decide +kernel
  deps n sp h := by
    rw [brimming_slot] at h
    rw [brimming_cutsLeft]
    split at h <;> cases h
    decide +kernel
  endedDeps n sp h := by rw [brimming_slot] at h; split at h <;> cases h
  reserved n := by
    rw [brimming_slot]
    split
    · subst_vars; decide +kernel
    · next h => simp [Slot.free, brimming, idx, ql, lk, Ne.symm h]
  outstanding n sp h := by
    rw [Slot.Has, brimming_slot] at h
    split at h <;> rcases h with h | h <;> cases h
    subst_vars
    decide +kernel
  spans q h := by
    obtain rfl : q = ql .pending none 6 := by simpa [brimming, idx] using h
    exact ⟨_, .inl rfl, rfl⟩
  numbers n h := by
    rw [brimming_slot] at h ⊢
    split at h
    · next e => rw [if_pos e]; exact ⟨_, rfl, by decide, fun e h => by cases h⟩
    · exact absurd rfl h
  free n h := by
    rw [brimming_slot] at h ⊢
    split at h
    · cases h
    · next e => rw [if_neg e]
  markers n := by
    have : brimming.unconsumed n = [] := by
      show (brimming.slot n).queue = []
      rw [brimming_slot]; split <;> rfl
    simp [this]
  ends n pre m post h := by rw [brimming_slot] at h; split at h <;> cases pre <;> cases h
  data n off bytes h := by rw [brimming_slot] at h; split at h <;> cases h
  payloads := nofun
  profiles n p h := by
    rw [brimming_slot] at h
    split at h <;> cases h
    exact ⟨by decide, by decide, by decide⟩
  settings := ⟨factory_inRange, nofun, nofun⟩
  listed := rfl
  lanes := nofun
  single n := Nat.zero_le _
  quiet n h := by rw [brimming_slot] at h; split at h <;> rcases h with h | h <;> cases h
  last n h := by rw [brimming_slot] at h; split at h <;> cases h

theorem witness_VerdictAndDependencyPlacesHold :
    (brimming.withPending [.credit 9]).PlacesInOrder ∧ ∃ t, step (brimming.withPending [.credit 9]) = .next t :=
  ⟨{ brimming_inOrder with }, _, rfl⟩

theorem witness_DeviceStateChanges :
    (∃ t, exec .powerOnReset svc = .next t ∧ t.ctl.dev ≠ svc.ctl.dev) ∧
      (∃ t, exec .indexMemoryClearDone State.reset = .next t ∧ t.ctl.dev ≠ State.reset.ctl.dev) ∧
      (∃ t, exec (.beginService 0 none) (asking rst .beginService 0 []) = .next t ∧ t.ctl.dev ≠ rst.ctl.dev) ∧
      ∃ t, exec .indexMemoryError rst = .next t ∧ t.ctl.dev ≠ rst.ctl.dev :=
  ⟨⟨_, rfl, by decide +kernel⟩, ⟨_, rfl, by decide +kernel⟩, ⟨_, rfl, by decide +kernel⟩, _, rfl, by decide +kernel⟩

theorem witness_FaultStopsTheEngine :
    flt.ctl.dev = .fault ∧ ∃ t, exec (.tick 0) flt = .next t ∧ t.ctl.dev = .fault := ⟨rfl, _, rfl, rfl⟩

theorem witness_PinHoldsTheEngineInReset :
    pin.ctl.pinHeld = true ∧ Instr.tick 0 ∉ [Instr.powerOnReset, .resetPinAssert, .resetPinRelease] := by decide +kernel

/-! ## Witnesses: resets and start-up -/

theorem witness_ResetsAndClearingBringUpTheEngine :
    (pin.ctl.pinHeld = true ∧ svc.ctl.pinHeld = false) ∧
      (State.reset.ctl.pinHeld = false ∧ State.reset.ctl.dev = .starting ∧ State.reset.ctl.clearing = true) ∧
      ∃ s : State, s.ctl.pinHeld = false ∧ s.ctl.dev = .starting ∧ s.ctl.readyHeld = true ∧
        s.link.notices.length < 128 :=
  ⟨by decide +kernel, by decide +kernel,
    crowd 127 { State.reset with ctl := { State.reset.ctl with clearing := false, readyHeld := true } },
    by decide +kernel⟩

theorem witness_ResetRequestTakesEffectWhenAnswered :
    (takes State.reset .reset 0 [] ∧ State.reset.ctl.dev = .starting) ∧
      (takes flt .reset 0 [] ∧ flt.ctl.dev ≠ .starting) ∧
      (∃ s : State, s.ctl.resetTaken = true ∧ s.link.requests = [req .status 0 []] ∧
        Instr.status ∈ [.status, .reset, .setSetting, .saveSettings, .declare 0, .seed 0 none, .beginService 0 none]) ∧
      ∃ s : State, s.link.tx = some ⟨.reply, []⟩ ∧ s.link.replies = [⟨2, 0, 7, .done, .none⟩] ∧
        s.ctl.pinHeld = false :=
  ⟨by decide +kernel, by decide +kernel,
    ⟨asking { svc with ctl := { svc.ctl with resetTaken := true } } .status 0 [], by decide +kernel⟩,
    { svc with link := { svc.link with tx := some ⟨.reply, []⟩, replies := [⟨2, 0, 7, .done, .none⟩] } },
    by decide +kernel⟩

/-! ## Witnesses: the record link -/

theorem witness_FrameRoundTrip :
    255 < 256 ∧ 65535 < 65536 ∧ (List.replicate 4102 (0 : Byte)).length ≤ 4102 :=
  ⟨by omega, by omega, (List.length_replicate ..).le⟩

theorem witness_RecordsAreLaidOut :
    (31 < 32 ∧ (seedEntries 32 []).length = 32) ∧ 63 < 64 ∧ (releaseItems 255 65535 64 []).length = 64 := by
  decide +kernel

/-- A state with the pending marks given. -/
def marked (c l o : Bool) : State :=
  crowd 127 { svc with link := { svc.link with checkMark := c, lengthMark := l, overrunMark := o } }

theorem witness_BadFramesAreCountedAndTold :
    (List.replicate 9 (0 : Byte)).length < 10 ∧
      (10 ≤ (List.replicate 10 (0 : Byte)).length ∧
        (checkValue ((List.replicate 10 (0 : Byte)).take 6)).toNat ≠ beNat ((List.replicate 10 (0 : Byte)).drop 6)) ∧
      (∃ b : List Byte, b = [0, 1, 1, 0, 0, 7] ++ beBytes 4 (checkValue [0, 1, 1, 0, 0, 7]).toNat ∧ b.length = 10 ∧
        (checkValue (b.take 6)).toNat = beNat (b.drop 6) ∧ field b 0 2 + 10 ≠ b.length) ∧
      ((marked true true true).ctl.pinHeld = false ∧ (marked true true true).link.notices.length < 128 ∧
        (marked true true true).link.checkMark = true) ∧
      ((marked false true true).link.notices.length < 128 ∧ (marked false true true).link.checkMark = false ∧
        (marked false true true).link.lengthMark = true) ∧
      ((marked false false true).link.notices.length < 128 ∧ (marked false false true).link.checkMark = false ∧
        (marked false false true).link.lengthMark = false ∧ (marked false false true).link.overrunMark = true) :=
  ⟨by decide +kernel, by decide +kernel, ⟨_, rfl, by decide +kernel⟩, by decide +kernel, by decide +kernel,
    by decide +kernel⟩

/-- A state with `n` outstanding requests. -/
def out_ (n : Nat) : State := { svc with link := { svc.link with outstanding := n } }

theorem witness_GoodFramesAreReceived :
    ((frameFault (frameBytes 3 0 7 [255]) = none ∧ field (frameBytes 3 0 7 [255]) 2 1 = 3 ∧
        (framePayload (frameBytes 3 0 7 [255])).length = 1) ∧
        (frameFault (frameBytes 3 0 7 []) = none ∧ field (frameBytes 3 0 7 []) 2 1 = 3 ∧
          (framePayload (frameBytes 3 0 7 [])).length ≠ 1) ∧
        (frameFault (frameBytes 1 0 7 []) = none ∧ field (frameBytes 1 0 7 []) 2 1 ≠ 3 ∧
          16 ≤ (out_ 16).link.outstanding) ∧
        (frameFault (frameBytes 30 0 7 []) = none ∧ 29 < field (frameBytes 30 0 7 []) 2 1 ∧
          (out_ 15).link.outstanding < 16) ∧
        (frameFault (frameBytes 0 0 7 []) = none ∧ field (frameBytes 0 0 7 []) 2 1 = 0)) ∧
      (frameFault (frameBytes 29 0 7 []) = none ∧ ReqKind.queryBranch.code = field (frameBytes 29 0 7 []) 2 1 ∧
        ¬ SuitsKind .queryBranch (framePayload (frameBytes 29 0 7 []))) ∧
      (frameFault (frameBytes 1 0 7 []) = none ∧ ReqKind.status.code = field (frameBytes 1 0 7 []) 2 1 ∧
        SuitsKind .status (framePayload (frameBytes 1 0 7 []))) ∧
      (frameFault (frameBytes 10 1 7 []) = none ∧ ReqKind.data.code = field (frameBytes 10 1 7 []) 2 1 ∧
        SuitsKind .data (framePayload (frameBytes 10 1 7 []))) :=
  ⟨by decide +kernel, ⟨by decide +kernel, by decide +kernel, by unfold SuitsKind; decide +kernel⟩,
    ⟨by decide +kernel, by decide +kernel, by unfold SuitsKind; decide +kernel⟩, by decide +kernel, by decide +kernel,
    .inl rfl⟩

/-- A state with one credit and the records given. -/
def waiting (rs : List Reply) (ns : List Notice) : State :=
  { svc with link := { svc.link with credit := 1, replies := rs, notices := ns } }

theorem witness_CreditIsSpentAndSaturates :
    svc.ctl.pinHeld = false ∧ svc.link.credit = 0 ∧
      ∃ t, exec .transmitStart (waiting [⟨1, 0, 7, .done, .none⟩] []) = .next t ∧
        (waiting [⟨1, 0, 7, .done, .none⟩] []).link.tx = none ∧ t.link.tx ≠ none :=
  ⟨rfl, rfl, _, rfl, rfl, by simp [waiting, State.beginSending, svc]⟩

/-- A stream with a made batch. -/
def batched : Slot := { act with madeBatch := some bat, filled := [ver] }

theorem witness_TransmitChoosesByClassAndTurn :
    ((waiting [⟨1, 0, 7, .done, .none⟩] []).link.tx = none ∧ 0 < (waiting [⟨1, 0, 7, .done, .none⟩] []).link.credit ∧
      (waiting [⟨1, 0, 7, .done, .none⟩] []).link.replies = [⟨1, 0, 7, .done, .none⟩]) ∧
      ((waiting [] [.surge 0 0 0 0, .containerFreed 0 0]).link.replies = [] ∧
        (waiting [] [.surge 0 0 0 0, .containerFreed 0 0]).link.notices =
          [.surge 0 0 0 0] ++ .containerFreed 0 0 :: [] ∧
        (∀ m ∈ [Notice.surge 0 0 0 0], m.cls ≠ (Notice.containerFreed 0 0).cls) ∧
        ∀ m ∈ [Notice.surge 0 0 0 0, .containerFreed 0 0], (Notice.containerFreed 0 0).cls ≤ m.cls) ∧
      ∃ s : State, (s.ctl.pinHeld = false ∧ s.link.tx = none ∧ 0 < s.link.credit ∧ s.link.replies = [] ∧
        s.link.notices = [] ∧ s.link.lastServed = 64 ∧ (s.slot 1).madeBatch = some bat) ∧
        ∀ m, 1 ≤ m → m ≤ 64 → (s.slot m).madeBatch ≠ none →
          (1 + 63 - s.link.lastServed) % 64 ≤ (m + 63 - s.link.lastServed) % 64 :=
  ⟨by decide +kernel, by decide +kernel, (waiting [] []).setSlot 1 batched, by decide +kernel,
    fun _ _ _ _ => Nat.zero_le _⟩

/-- A stream's last batch is due, by nothing of it standing in a lane. -/
theorem lastBatchDue_of {s : State} {n : Nat} (h : s.lanes = []) (hf : (s.slot n).finalMade = false)
    (hr : (s.slot n).reserved = 0)
    (hd : (s.slot n).state = .aborting ∨ (s.slot n).state = .draining ∧ (s.slot n).endConsumed = true) :
    s.LastBatchDue n :=
  ⟨hf, hr, hd.elim (fun h' => .inr ⟨h', by simp [h]⟩) .inl⟩

theorem not_lastBatchDue {s : State} {n : Nat} (h : (s.slot n).state = .active) : ¬ s.LastBatchDue n := by
  rintro ⟨-, -, ⟨h', -⟩ | ⟨h', -⟩⟩ <;> rw [h] at h' <;> cases h'

/-- Nothing of the stream's seal is held. -/
theorem noSealBehind {s : State} {n : Nat} (h : s.place.held = none) : s.NoSealBehind n :=
  fun h' => by rw [h] at h'; cases h'

/-- A stream whose last batch has been sent. -/
def ended : Slot := { act with state := .draining, finalMade := true }

/-- A state whose transmitter sends that record. -/
def sending (s : State) (src : TxSource) : State := { s with link := { s.link with tx := some ⟨src, []⟩ } }

theorem witness_SentRecordsLeaveTheirPlaces :
    ((sending (waiting [⟨1, 0, 7, .done, .none⟩] []) .reply).link.tx = some ⟨.reply, []⟩ ∧
      (sending (waiting [⟨1, 0, 7, .done, .none⟩] []) .reply).link.replies = [⟨1, 0, 7, .done, .none⟩] ∧
      (1 ≠ 2 ∨ Status.done ≠ .done)) ∧
      ((sending (waiting [] [.surge 0 0 0 0, .containerFreed 0 0]) (.notice 3)).link.notices =
          [.surge 0 0 0 0] ++ .containerFreed 0 0 :: [] ∧ (Notice.containerFreed 0 0).cls = 3 ∧
        ∀ m ∈ [Notice.surge 0 0 0 0], m.cls ≠ 3) ∧
      (∃ s : State, s.link.tx = some ⟨.batch 1, []⟩ ∧ s.ctl.pinHeld = false ∧ s.ctl.dev ≠ .service ∧
        (s.slot 1).due = true) ∧
      (∃ s : State, s.link.tx = some ⟨.batch 1, []⟩ ∧ s.ctl.pinHeld = false ∧ s.ctl.dev = .service ∧
        (s.slot 1).finalMade = false ∧ (s.slot 1).due = false ∧ ¬ s.LastBatchDue 1) ∧
      (∃ s : State, s.link.tx = some ⟨.batch 1, []⟩ ∧ s.ctl.pinHeld = false ∧ s.ctl.dev = .service ∧
        (s.slot 1).finalMade = false ∧ (s.slot 1).due = true ∧ ¬ s.LastBatchDue 1) ∧
      (∃ s : State, s.link.tx = some ⟨.batch 1, []⟩ ∧ s.ctl.pinHeld = false ∧ s.ctl.dev = .service ∧
        (s.slot 1).finalMade = false ∧ (s.slot 1).state = .draining ∧ s.LastBatchDue 1) ∧
      (∃ s : State, s.link.tx = some ⟨.batch 1, []⟩ ∧ s.ctl.pinHeld = false ∧ s.ctl.dev = .service ∧
        (s.slot 1).finalMade = false ∧ (s.slot 1).state = .aborting ∧ (s.slot 1).mark.phase = .open_ ∧
        s.LastBatchDue 1 ∧ s.NoSealBehind 1) ∧
      (∃ s : State, s.link.tx = some ⟨.batch 1, []⟩ ∧ s.ctl.pinHeld = false ∧ s.ctl.dev = .service ∧
        (s.slot 1).finalMade = true ∧ (s.slot 1).branch = some 5 ∧ (s.slot 1).state = .draining ∧
        (s.slot 1).reportSlot = none ∧ (s.slot 1).waiting = none ∧ (s.slot 1).heldReport = none ∧
        s.laneHolds 1 = false ∧ s.link.notices.length < 128) ∧
      (∃ s : State, s.link.tx = some ⟨.batch 1, []⟩ ∧ s.ctl.pinHeld = false ∧ s.ctl.dev = .service ∧
        (s.slot 1).finalMade = true ∧ (s.slot 1).branch = some 5 ∧ (s.slot 1).state = .draining ∧
        (s.slot 1).reportSlot ≠ none ∧ s.link.notices.length < 128) ∧
      ∃ s : State, s.link.tx = some ⟨.batch 1, []⟩ ∧ s.ctl.pinHeld = false ∧ s.ctl.dev = .service ∧
        (s.slot 1).finalMade = true ∧ (s.slot 1).branch = some 5 ∧ (s.slot 1).state = .aborting ∧
        128 ≤ s.link.notices.length :=
  ⟨by decide +kernel, by decide +kernel,
    ⟨sending (flt.setSlot 1 { batched with due := true }) (.batch 1), by decide +kernel⟩,
    ⟨sending (at_ 1 batched) (.batch 1), rfl, rfl, rfl, rfl, rfl, not_lastBatchDue rfl⟩,
    ⟨sending (at_ 1 { batched with due := true }) (.batch 1), rfl, rfl, rfl, rfl, rfl, not_lastBatchDue rfl⟩,
    ⟨sending (at_ 1 { batched with state := .draining, endConsumed := true, due := true }) (.batch 1), rfl, rfl, rfl,
      rfl, rfl, lastBatchDue_of rfl rfl rfl (.inr ⟨rfl, rfl⟩)⟩,
    ⟨sending (at_ 1 { batched with state := .aborting, due := true, mark := markIn .open_ false }) (.batch 1), rfl, rfl,
      rfl, rfl, rfl, rfl, lastBatchDue_of rfl rfl rfl (.inl rfl), noSealBehind rfl⟩,
    ⟨sending (crowd 127 (at_ 1 { ended with madeBatch := some bat })) (.batch 1), by decide +kernel⟩,
    ⟨sending (crowd 127 (at_ 1 { ended with madeBatch := some bat, reportSlot := some (rep .clean, 0) })) (.batch 1),
      by decide +kernel⟩,
    sending (crowd 128 (at_ 1 { ended with state := .aborting, madeBatch := some bat })) (.batch 1), by decide +kernel⟩

/-! ## Witnesses: the controller -/

theorem witness_ReadingRequestsOnlyReply :
    takes State.reset .status 0 [] ∧
      (takes (at_ 64 act) .snapshot 64 [] ∧ (asking (at_ 64 act) .snapshot 64 []).Addressed (req .snapshot 64 []) ∧
        ((at_ 64 act).slot 64).current = some (.fresh 0 0)) ∧
      (takes (at_ 1 act) .readReport 1 [] ∧ (asking (at_ 1 act) .readReport 1 []).Addressed (req .readReport 1 []) ∧
        ((at_ 1 act).slot 1).reportSlot = none) ∧
      (takes (at_ 1 { act with reportSlot := some (rep .clean, 3) }) .readReport 1 [] ∧
        ((at_ 1 { act with reportSlot := some (rep .clean, 3) }).slot 1).reportSlot = some (rep .clean, 3)) ∧
      (takes svc .queryContainer 0 [0xFF, 0xFF] ∧ svc.ctl.dev = .service) ∧ takes svc .queryBranch 0 [255] ∧
      (takes rst .queryContainer 0 [0, 9] ∧ takes flt .queryBranch 0 [255] ∧ rst.ctl.dev ≠ .service ∧
        flt.ctl.dev ≠ .service) := by
  decide +kernel

/-- A device whose store is being programmed. -/
def saving (d : DevState) : State :=
  { svc with ctl := { svc.ctl with dev := d, storeState := .saving, programming := some .factory } }

theorem witness_SettingsAreSetAndSaved :
    ((takes flt .setSetting 0 [1, 0, 0, 0, 0] ∧ (flt.ctl.dev = .starting ∨ flt.ctl.dev = .fault)) ∧
        (takes (saving .service) .setSetting 0 [1, 0, 0, 0, 0] ∧ (saving .service).ctl.storeState = .saving) ∧
        (takes rst .setSetting 0 [16, 0, 0, 0, 0] ∧ rst.ctl.storeState ≠ .saving ∧ 15 < field [16, 0, 0, 0, 0] 0 1) ∧
        (takes rst .setSetting 0 [0, 0, 0, 0, 0] ∧ field [0, 0, 0, 0, 0] 0 1 = 0) ∧
        (takes rst .setSetting 0 [15, 0, 0, 4, 0] ∧ (field [15, 0, 0, 4, 0] 0 1, 1, 1024) ∈ settingTable ∧
          rst.ctl.settings.With 15 (max 1 (min 1024 (field [15, 0, 0, 4, 0] 1 4)))
            { rst.ctl.settings with minSampleMib := 1024 } ∧
          1 ≤ field [15, 0, 0, 4, 0] 1 4 ∧ field [15, 0, 0, 4, 0] 1 4 ≤ 1024) ∧
        (takes rst .setSetting 0 [15, 0, 0, 0, 0] ∧ field [15, 0, 0, 0, 0] 1 4 < 1 ∧
          rst.ctl.settings.With 15 (max 1 (min 1024 (field [15, 0, 0, 0, 0] 1 4)))
            { rst.ctl.settings with minSampleMib := 1 }) ∧
        (takes rst .setSetting 0 [1, 0, 0, 64, 1] ∧ (field [1, 0, 0, 64, 1] 0 1, 256, 16384) ∈ settingTable ∧
          16384 < field [1, 0, 0, 64, 1] 1 4 ∧
          rst.ctl.settings.With 1 (max 256 (min 16384 (field [1, 0, 0, 64, 1] 1 4)))
            { rst.ctl.settings with lmin := 16384 }) ∧
        (takes flt .saveSettings 0 [] ∧ flt.ctl.dev = .fault) ∧
        (takes (saving .restore) .saveSettings 0 [] ∧ (saving .restore).ctl.dev = .restore ∧
          (saving .restore).ctl.storeState = .saving) ∧
        (takes rst .saveSettings 0 [] ∧ rst.ctl.dev = .restore ∧ rst.ctl.storeState ≠ .saving) ∧
        ((saving .fault).ctl.pinHeld = false ∧ (saving .fault).ctl.programming = some .factory)) ∧
      ∃ s : State, s.ctl.pinHeld = false ∧ s.ctl.savedHeld = some .factory ∧ s.link.notices.length < 128 := by
  unfold Settings.With
  exact ⟨by and_intros <;> decide +kernel, crowd 127 { svc with ctl := { svc.ctl with savedHeld := some .factory } },
    by decide +kernel⟩

/-- A DECLARE of container 9, group 7, with that capacity and fill, state DURABLE. -/
def decl (cap fill : Nat) : List Byte := [0, 9, 7] ++ beBytes 4 cap ++ beBytes 4 fill ++ [3]

theorem witness_DeclareMakesAContainerDurable :
    (takes svc .declare 0 (decl 4194304 0) ∧ svc.ctl.dev ≠ .restore) ∧
      (takes rst .declare 0 (decl 4194305 0) ∧ rst.ctl.dev = .restore ∧ ¬ 1048576 ∣ field (decl 4194305 0) 3 4) ∧
      (takes (rst.setContainer 9 (box .durable 0)) .declare 0 (decl 67108864 67108864) ∧
        field (decl 67108864 67108864) 11 1 = 3 ∧ field (decl 67108864 67108864) 2 1 ≤ 7 ∧
        1048576 ∣ field (decl 67108864 67108864) 3 4 ∧ 4194304 ≤ field (decl 67108864 67108864) 3 4 ∧
        field (decl 67108864 67108864) 3 4 ≤ 67108864 ∧
        field (decl 67108864 67108864) 7 4 ≤ field (decl 67108864 67108864) 3 4 ∧
        ((rst.setContainer 9 (box .durable 0)).container (field (decl 67108864 67108864) 0 2)).state ≠ .free) ∧
      (takes rst .declare 0 (decl 4194304 0) ∧ (rst.container (field (decl 4194304 0) 0 2)).state = .free ∧
        1048576 ∣ field (decl 4194304 0) 3 4 ∧ field (decl 4194304 0) 11 1 = 3) := by
  decide +kernel

/-- A seed entry of bucket 6 in container 9. -/
def seedOf (len refs : Nat) : List Byte :=
  beBytes 16 (6 * 4 * 2 ^ 104) ++ beBytes 4 len ++ [0, 9] ++ beBytes 4 0 ++ beBytes 2 refs
/-- A seed list of one entry. -/
def seeds (len refs : Nat) : List Byte := [1] ++ seedOf len refs
/-- A seed list whose good entry follows one with a bad field. -/
def twoSeeds : List Byte := [2] ++ seedOf 101 1 ++ seedOf 100 1
/-- A RESTORE with container 9 DURABLE. -/
def rst9 : State := rst.setContainer 9 (box .durable 0)

theorem witness_SeedJudgesItsEntries :
    ((takes svc .seed 0 (seeds 100 1) ∧ svc.ctl.dev ≠ .restore) ∧
        (takes rst .seed 0 [33] ∧ 32 < field [33] 0 1) ∧ (takes rst .seed 0 [0] ∧ field [0] 0 1 = 0) ∧
        (takes rst .seed 0 (seeds 100 1) ∧ field (seeds 100 1) 0 1 = 1 ∧
          (seedEntries 1 ((seeds 100 1).drop 1)).length = 1 ∧
          ∀ e ∈ seedEntries 1 ((seeds 100 1).drop 1), rst.BadContainer e) ∧
        (takes rst9 .seed 0 (seeds 101 1) ∧ ∀ e ∈ seedEntries 1 ((seeds 101 1).drop 1),
          ¬ rst9.BadContainer e ∧ rst9.BadField e)) ∧
      (takes rst9 .seed 0 (seeds 100 65535) ∧ ∃ e, seedEntries 1 ((seeds 100 65535).drop 1) = [] ++ e :: [] ∧
        ¬ (rst9.BadContainer e ∨ rst9.BadField e)) ∧
      (takes rst9 .seed 0 twoSeeds ∧ field twoSeeds 0 1 = 2 ∧ ∃ bad e,
        seedEntries 2 (twoSeeds.drop 1) = [bad] ++ e :: [] ∧ rst9.BadField bad ∧
        ¬ (rst9.BadContainer e ∨ rst9.BadField e) ∧ [bad].length < 2 ∧ some 1 = some [bad].length) :=
  ⟨by decide +kernel, ⟨by decide +kernel, _, rfl, by decide +kernel⟩, by decide +kernel, by decide +kernel, _, _, rfl,
    by decide +kernel⟩

/-- A seed operation in progress on bucket 6. -/
def seeding (bk : Bucket) (spill : Nat) : State :=
  idx ({ rst9 with ctl := { rst9.ctl with seedWork := some ⟨[⟨(ent 1).fp, 100, 9, 0, 1⟩], 0, 0, 0, 0, 0⟩ } }.setBucket 6
    bk) (fun x => { x with other := some (.seed 6), inflight := [6], spillCount := spill })
/-- Another entry. -/
def other (n : Nat) : IndexEntry := ⟨BitVec.ofNat 128 n, 100, 9, 0, 1⟩

/-- Its SEED has a bad and a good entry left after the one in hand. -/
def seedingMore : State :=
  { asking (seeding ⟨[], 0⟩ 0) .seed 0 (seeds 100 1) with
    ctl := { rst9.ctl with
      seedWork := some ⟨[⟨(ent 1).fp, 100, 9, 0, 1⟩, ⟨0, 0, 9, 0, 1⟩, ⟨1, 100, 9, 0, 1⟩], 0, 0, 0, 0, 0⟩ } }

theorem witness_SeedOperationInsertsOrCounts :
    (((asking (seeding ⟨[ent 1], 0⟩ 0) .seed 0 (seeds 100 1)).ctl.dev = .restore ∧
          (seeding ⟨[ent 1], 0⟩ 0).index.other = some (.seed 6) ∧ 6 = bucketOf (ent 1).fp ∧
          ¬ ∀ x ∈ ((seeding ⟨[ent 1], 0⟩ 0).bucket 6).entries, ¬ (x.fp = (ent 1).fp ∧ x.length = 100)) ∧
        ((∀ x ∈ ((seeding ⟨(List.range 8).map other, 0⟩ 65536).bucket 6).entries,
            ¬ (x.fp = (ent 1).fp ∧ x.length = 100)) ∧
          ((seeding ⟨(List.range 8).map other, 0⟩ 65536).bucket 6).spill = 0 ∧
          8 ≤ ((seeding ⟨(List.range 8).map other, 0⟩ 65536).bucket 6).entries.length ∧
          65536 ≤ (seeding ⟨(List.range 8).map other, 0⟩ 65536).index.spillCount) ∧
        ((∀ x ∈ ((seeding ⟨(List.range 7).map other, 0⟩ 0).bucket 6).entries,
            ¬ (x.fp = (ent 1).fp ∧ x.length = 100)) ∧
          ((seeding ⟨(List.range 7).map other, 0⟩ 0).bucket 6).entries.length < 8) ∧
        (8 ≤ ((seeding ⟨(List.range 8).map other, 0⟩ 65535).bucket 6).entries.length ∧
          (seeding ⟨(List.range 8).map other, 0⟩ 65535).index.spillCount < 65536)) ∧
      (seedingMore.ctl.dev = .restore ∧ seedingMore.ctl.pinHeld = false ∧
        seedingMore.link.requests = [req .seed 0 (seeds 100 1)] ∧ seedingMore.index.other = some (.seed 6) ∧
        ∃ w, seedingMore.ctl.seedWork = some w ∧
          w.rest = ⟨(ent 1).fp, 100, 9, 0, 1⟩ :: ([⟨0, 0, 9, 0, 1⟩] ++ ⟨1, 100, 9, 0, 1⟩ :: []) ∧
          seedingMore.BadField ⟨0, 0, 9, 0, 1⟩ ∧
          ¬ (seedingMore.BadContainer ⟨1, 100, 9, 0, 1⟩ ∨ seedingMore.BadField ⟨1, 100, 9, 0, 1⟩)) :=
  ⟨by decide +kernel, by decide +kernel, by decide +kernel,
    by decide +kernel, by decide +kernel, _, rfl, by decide +kernel⟩

/-- A RESTORE with two DURABLE containers without entries. -/
def rst89 (notices : Nat) : State := crowd notices (rst9.setContainer 8 (box .durable 0))

theorem witness_BeginServiceEntersService :
    ((takes svc .beginService 0 [] ∧ svc.ctl.dev ≠ .restore ∧ tableWf Container.free svc.place.containers = true) ∧
        (takes rst .beginService 0 [] ∧ (rst.reclaimable none).length = 0) ∧
        (takes (rst89 127) .beginService 0 [] ∧ tableWf Container.free (rst89 127).place.containers = true ∧
          128 - (rst89 127).link.notices.length < ((rst89 127).reclaimable none).length) ∧
        (takes (rst89 126) .beginService 0 [] ∧
          ((rst89 126).reclaimable none).length = 128 - (rst89 126).link.notices.length) ∧
        (takes (rst89 126) .beginService 0 [] ∧ ((rst89 126).reclaimable (some 9)).length = 1)) ∧
      ∃ s : State, s.ctl.dev = .restore ∧ s.ctl.pinHeld = false ∧ s.ctl.beginWork = some 1 ∧
        s.link.requests = [req .beginService 0 []] ∧ s.link.notices.length < 128 ∧
        tableWf Container.free s.place.containers = true ∧ (s.reclaimable none).length = 1 ∧
        (s.reclaimable (some 9)).length = 0 :=
  ⟨by decide +kernel,
    asking { crowd 127 rst9 with ctl := { rst9.ctl with beginWork := some 1 } } .beginService 0 [], by decide +kernel⟩

theorem witness_UncorrectableErrorEntersFault :
    (rst.ctl.pinHeld = false ∧ rst.ctl.dev = .restore ∧ rst.marks.ackHeld = false ∧
        rst.place.held ≠ some .request ∧ rst.ctl.seedWork = none ∧ rst.ctl.beginWork = none) ∧
      (∃ s : State, s.ctl.pinHeld = false ∧ s.ctl.dev = .service ∧ s.link.requests = [req .ackReport 1 []] ∧
        s.marks.ackHeld = true) ∧
      (∃ s : State, s.ctl.pinHeld = false ∧ s.ctl.dev = .service ∧ s.link.requests = [req .flush 0 [7]] ∧
        s.place.held = some .request) ∧
      (seedingMore.ctl.dev = .restore ∧ seedingMore.link.requests = [req .seed 0 (seeds 100 1)] ∧
        seedingMore.ctl.seedWork ≠ none) ∧
      (flt.ctl.pinHeld = false ∧ flt.ctl.dev = .fault) ∧
      ∃ s : State, s.ctl.pinHeld = false ∧ s.ctl.faultPending = some .service ∧ s.link.notices.length < 128 :=
  ⟨by decide +kernel, ⟨asking { svc with marks := ⟨true, []⟩ } .ackReport 1 [], by decide +kernel⟩,
    ⟨plc (asking svc .flush 0 [7]) (fun x => { x with held := some .request }), by decide +kernel⟩, by decide +kernel,
    by decide +kernel, crowd 127 { flt with ctl := { flt.ctl with faultPending := some .service } }, by decide +kernel⟩

/-! ## Witnesses: streams -/

/-- A device whose 64 slots all hold streams. -/
def allOpen : State := { svc with slots := (List.range' 1 64).map (fun n => (n, act)) }
/-- A CHUNKING block that R23 refuses. -/
def badBlock : List Byte := [1, 18] ++ beBytes 4 16384 ++ beBytes 4 8192 ++ beBytes 4 1024 ++ [14, 12, 0, 0, 0, 0]

theorem witness_OpenFillsASlotOrIsRefused :
    (∃ v, takes (at_ 1 act) .openStream 0 [255, 7] ∧ (at_ 1 act).ctl.dev = .service ∧
        parseBlocks (([255, 7] : List Byte).drop 2) = some [] ∧ field [255, 7] 1 1 ≤ 7 ∧
        ((at_ 1 act).branch (field [255, 7] 0 1)).bound = none ∧
        gatherOpen (at_ 1 act).ctl.settings [] = some v ∧ ((at_ 1 act).slot 2).state = .free ∧
        ∀ m, 1 ≤ m → m < 2 → ((at_ 1 act).slot m).state ≠ .free) ∧
      (takes rst .openStream 0 [0, 0] ∧ rst.ctl.dev ≠ .service) ∧
      (takes svc .openStream 0 [0, 0, 4, 0] ∧ parseBlocks [4, 0] = none) ∧
      (takes svc .openStream 0 [0, 8] ∧ parseBlocks [] = some [] ∧ 7 < field [0, 8] 1 1) ∧
      (takes busy .openStream 0 [5, 7] ∧ field [5, 7] 1 1 ≤ 7 ∧ (busy.branch (field [5, 7] 0 1)).bound ≠ none) ∧
      (takes svc .openStream 0 ([0, 7] ++ badBlock) ∧
        ∃ b, parseBlocks badBlock = some b ∧ gatherOpen svc.ctl.settings b = none) ∧
      (takes allOpen .openStream 0 [0, 7] ∧ gatherOpen allOpen.ctl.settings [] ≠ none ∧
        ∀ m, 1 ≤ m → m ≤ 64 → (allOpen.slot m).state ≠ .free) := by
  refine ⟨⟨_, by decide +kernel, rfl, by decide +kernel, by decide +kernel, by decide +kernel, rfl, by decide +kernel,
    fun m h1 h2 => ?_⟩, by decide +kernel, by decide +kernel, by decide +kernel, by decide +kernel,
    ⟨by decide +kernel, _, rfl, by decide +kernel⟩, by decide +kernel, by decide +kernel, fun m h1 h2 => ?_⟩
  · obtain rfl : m = 1 := by omega
    decide +kernel
  · have : ∀ m : Fin 65, 1 ≤ m.val → (allOpen.slot m.val).state ≠ .free := by decide +kernel
    exact this ⟨m, by omega⟩ h1

/-- A CHECKPOINT and a SHARE block with every field beyond an end of its range but the weight. -/
def blocks : List ParamBlock := [⟨2, [0, 9, 2]⟩, ⟨3, [255, 0x27, 0x11, 65]⟩]

theorem witness_OpenParametersAreGathered :
    (blocks.map ParamBlock.type).Nodup ∧ (∃ v, gatherOpen .factory blocks = some v) ∧
      ([⟨1, badBlock.drop 2⟩].map ParamBlock.type).Nodup ∧ gatherOpen .factory [⟨1, badBlock.drop 2⟩] = none ∧
      gatherOpen { Settings.factory with lmin := 1025, lmax := 1024 } [] = none :=
  ⟨by decide +kernel, ⟨_, rfl⟩, by decide +kernel, by decide +kernel, by decide +kernel⟩

theorem witness_ChunkingBlockIsClamped :
    max 1024 (min 65536 (field (badBlock.drop 2) 8 4)) < max 256 (min 16384 (field (badBlock.drop 2) 0 4)) ∧
      max 256 (min 16384 (field (List.replicate 18 0) 0 4)) ≤
        max 1024 (min 65536 (field (List.replicate 18 0) 8 4)) := by
  decide +kernel

theorem witness_MisaddressedRequestsAreRefused :
    (takes rst .mark 1 [0, 0, 0, 1] ∧ rst.Misaddressed (req .mark 1 [0, 0, 0, 1]) .badState) ∧
      (takes svc .mark 65 [0, 0, 0, 1] ∧ svc.Misaddressed (req .mark 65 [0, 0, 0, 1]) .range) ∧
      (takes svc .close 64 [] ∧ svc.Misaddressed (req .close 64 []) .noStream) ∧
      (takes (at_ 1 { act with state := .draining }) .close 1 [] ∧
        (at_ 1 { act with state := .draining }).Misaddressed (req .close 1 []) .badState) ∧
      (takes (at_ 1 { act with state := .aborting }) .seal 1 [] ∧
        (at_ 1 { act with state := .aborting }).Misaddressed (req .seal 1 []) .badState) ∧
      (takes svc .abort 0 [] ∧ svc.Misaddressed (req .abort 0 []) .range) ∧
      (Instr.mark, ReqKind.mark) ∈ plainStreamRows :=
  ⟨⟨by decide +kernel, .device (by decide +kernel)⟩, ⟨by decide +kernel,
    .range (by decide +kernel) (by decide +kernel)⟩,
    ⟨by decide +kernel, .noStream (by decide +kernel) (by decide +kernel) (by decide +kernel) (by decide +kernel)⟩,
    ⟨by decide +kernel, .slotState (by decide +kernel) (by decide +kernel) (by decide +kernel) (by decide +kernel)
      (by decide +kernel)⟩,
    ⟨by decide +kernel, .slotState (by decide +kernel) (by decide +kernel) (by decide +kernel) (by decide +kernel)
      (by decide +kernel)⟩,
    ⟨by decide +kernel, .range (by decide +kernel) (by decide +kernel)⟩, by decide +kernel⟩

/-- A DATA record of three bytes at that offset. -/
def dat (off : Nat) : List Byte := beBytes 6 off ++ [1, 2, 3]
/-- A stream with `n` entries in its input queue. -/
def queued (n : Nat) : Slot := { act with queue := List.replicate n (.data 0 [1]) }

theorem witness_DataIsTakenOrDropped :
    ((takes svc .data 0 (dat 0) ∧ svc.ctl.dev = .service) ∧ takes svc .data 65 (dat 0) ∧
        (takes flt .data 1 (dat 0) ∧ flt.ctl.dev ≠ .service) ∧
        (takes svc .data 64 (dat 0) ∧ (svc.slot 64).state ≠ .active) ∧
        (takes (at_ 1 act) .data 1 [0, 0, 0, 0, 0, 0] ∧ ((at_ 1 act).slot 1).state = .active) ∧
        (takes (at_ 1 act) .data 1 (dat 1) ∧ field (dat 1) 0 6 ≠ ((at_ 1 act).slot 1).nextOffset ∧
          6 ≤ (dat 1).length) ∧
        (takes (at_ 1 { act with nextOffset := 2 ^ 48 - 3 }) .data 1 (dat (2 ^ 48 - 3)) ∧
          field (dat (2 ^ 48 - 3)) 0 6 = 2 ^ 48 - 3 ∧
          2 ^ 48 - 1 < field (dat (2 ^ 48 - 3)) 0 6 + ((dat (2 ^ 48 - 3)).drop 6).length) ∧
        (takes (at_ 1 (queued 8)) .data 1 (dat 0) ∧ 8 ≤ ((at_ 1 (queued 8)).slot 1).queue.length) ∧
        (takes (at_ 1 { queued 7 with nextOffset := 2 ^ 48 - 4 }) .data 1 (dat (2 ^ 48 - 4)) ∧
          field (dat (2 ^ 48 - 4)) 0 6 + ((dat (2 ^ 48 - 4)).drop 6).length ≤ 2 ^ 48 - 1 ∧
          ((at_ 1 { queued 7 with nextOffset := 2 ^ 48 - 4 }).slot 1).queue.length < 8)) ∧
      ∃ s : State, s.dataHeld = some (.dataRefused 1 .range 0 0 0) ∧ s.ctl.pinHeld = false ∧
        s.link.notices.length < 128 ∧ s.link.requests = [req .status 0 []] :=
  ⟨by decide +kernel, asking (crowd 127 { flt with dataHeld := some (.dataRefused 1 .range 0 0 0) }) .status 0 [],
    by decide +kernel⟩

theorem witness_WeightPacingAndIntervalAreSet :
    (asking (at_ 64 act) .setWeight 64 [255]).Addressed (req .setWeight 64 [255]) ∧
      takes (at_ 64 act) .setWeight 64 [255] ∧
      (takes (at_ 64 act) .setPacing 64 [0x27, 0x11] ∧
        (asking (at_ 64 act) .setPacing 64 [0x27, 0x11]).Addressed (req .setPacing 64 [0x27, 0x11])) ∧
      (takes (at_ 1 { act with mark := markIn .open_ false }) .retime 1 [0, 10] ∧
        ((at_ 1 { act with mark := markIn .open_ false }).slot 1).mark.phase ≠ .none) ∧
      (takes (at_ 1 act) .retime 1 [0, 9] ∧
        (asking (at_ 1 act) .retime 1 [0, 9]).Addressed (req .retime 1 [0, 9]) ∧
        ((at_ 1 act).slot 1).mark.phase = .none) := by
  decide +kernel

/-- A WORKING lane with an entry of slot 1. -/
def lane (e : Entry) (rest : List Byte) (x : Ctx) (done : Bool) : Lane := ⟨.working, some ⟨1, e, rest, prof, x, done,
  none⟩⟩

/-- A stream whose last batch has been sent, with a report left. -/
def unread : Slot := { ended with reportSlot := some (rep .clean, 0) }

theorem witness_CloseAndAbortEndTheStream :
    ((takes (at_ 1 { act with mark := markIn .open_ false }) .close 1 [] ∧
          ((at_ 1 { act with mark := markIn .open_ false }).slot 1).mark.phase ≠ .none) ∧
        (takes (at_ 1 (queued 8)) .close 1 [] ∧
          (asking (at_ 1 (queued 8)) .close 1 []).Addressed (req .close 1 []) ∧
          ((at_ 1 (queued 8)).slot 1).mark.phase = .none ∧ 8 ≤ ((at_ 1 (queued 8)).slot 1).queue.length) ∧
        (takes (at_ 1 (queued 7)) .close 1 [] ∧ ((at_ 1 (queued 7)).slot 1).queue.length < 8) ∧
        (takes ((at_ 1 (queued 7)).setLane 4 (lane (.data 0 [1]) [1] ⟨0, 0, 0, []⟩ false)) .abort 1 [] ∧
          ((at_ 1 (queued 7)).setLane 4 (lane (.data 0 [1]) [1] ⟨0, 0, 0, []⟩ false)).laneHolds 1 = true ∧
          ((at_ 1 (queued 7)).slot 1).finalMade = false) ∧
        (takes (at_ 1 { act with reserved := 1 }) .abort 1 [] ∧
          (asking (at_ 1 { act with reserved := 1 }) .abort 1 []).Addressed (req .abort 1 []) ∧
          (at_ 1 { act with reserved := 1 }).laneHolds 1 = false ∧
          ((at_ 1 { act with reserved := 1 }).slot 1).reserved ≠ 0) ∧
        (takes (at_ 1 batched) .abort 1 [] ∧ (at_ 1 batched).laneHolds 1 = false ∧
          ((at_ 1 batched).slot 1).finalMade = false ∧ ((at_ 1 batched).slot 1).reserved = 0 ∧
          ((at_ 1 batched).slot 1).madeBatch ≠ none)) ∧
      (takes (at_ 1 (withMark .open_ true (some (span [9])))) .abort 1 [] ∧
        (at_ 1 (withMark .open_ true (some (span [9])))).laneHolds 1 = false ∧
        ((at_ 1 (withMark .open_ true (some (span [9])))).slot 1).finalMade = false ∧
        ((at_ 1 (withMark .open_ true (some (span [9])))).slot 1).reserved = 0 ∧
        ((at_ 1 (withMark .open_ true (some (span [9])))).slot 1).madeBatch = none ∧
        (at_ 1 (withMark .open_ true (some (span [9])))).NoSealBehind 1) ∧
      (takes (at_ 1 { ended with madeBatch := some bat }) .abort 1 [] ∧
        (asking (at_ 1 { ended with madeBatch := some bat }) .abort 1 []).Addressed (req .abort 1 []) ∧
        ((at_ 1 { ended with madeBatch := some bat }).slot 1).finalMade = true ∧
        ((at_ 1 { ended with madeBatch := some bat }).slot 1).madeBatch ≠ none ∧
        (at_ 1 { ended with madeBatch := some bat }).NoSealBehind 1) ∧
      (takes (crowd 128 (at_ 1 unread)) .abort 1 [] ∧ ((at_ 1 unread).slot 1).finalMade = true ∧
        128 ≤ (crowd 128 (at_ 1 unread)).link.notices.length) ∧
      (takes (crowd 127 (at_ 1 unread)) .abort 1 [] ∧ ((at_ 1 unread).slot 1).finalMade = true ∧
        ((at_ 1 unread).slot 1).madeBatch = none ∧ (crowd 127 (at_ 1 unread)).link.notices.length < 128 ∧
        ((at_ 1 unread).slot 1).branch = some 5 ∧ (crowd 127 (at_ 1 unread)).laneHolds 1 = false) :=
  ⟨by decide +kernel, ⟨by decide +kernel, rfl, rfl, rfl, rfl, noSealBehind rfl⟩,
    ⟨by decide +kernel, by decide +kernel, rfl, by decide +kernel, noSealBehind rfl⟩, by decide +kernel,
    by decide +kernel⟩

theorem witness_StreamClosedFreesTheSlot :
    (∃ s : State, s.ctl.dev = .service ∧ s.ctl.pinHeld = false ∧
        ((s.slot 64).state = .draining ∨ (s.slot 64).state = .aborting) ∧ (s.slot 64).finalMade = true ∧
        (s.slot 64).madeBatch = none ∧ (s.slot 64).reportSlot = none ∧ (s.slot 64).waiting = none ∧
        (s.slot 64).heldReport = none ∧ (s.slot 64).branch = some 5 ∧ s.laneHolds 64 = false ∧
        s.link.notices.length < 128) ∧
      (∃ (s : State) (w : Work), s.ctl.dev = .service ∧ (s.slot 64).state = .draining ∧ (s.slot 64).finalMade = true ∧
        (s.slot 64).branch = some 5 ∧ (s.lane 4).work = some w ∧ w.slot = 64 ∧
        (∀ m, m ≠ 4 → ∀ w', (s.lane m).work = some w' → w'.slot ≠ 64) ∧ s.link.notices.length < 128) ∧
      ∃ s : State, s.ctl.dev = .service ∧ (s.slot 64).state = .draining ∧ (s.slot 64).finalMade = true ∧
        (s.slot 64).branch = some 5 ∧ 128 ≤ s.link.notices.length := by
  refine ⟨⟨crowd 127 (at_ 64 ended), by decide +kernel⟩,
    ⟨(crowd 127 (at_ 64 { ended with queue := [.endMark 0] })).setLane 4
      ⟨.working, some ⟨64, .endMark 0, [], prof, ⟨0, 0, 0, []⟩, true, none⟩⟩, _, rfl, rfl, rfl, rfl, rfl, rfl,
      fun m hm w' h => ?_, by decide +kernel⟩, crowd 128 (at_ 64 ended), by decide +kernel⟩
  simp [crowd, at_, State.lane, State.setLane, State.setSlot, tableGet_tableSet, hm, svc, State.reset, tableGet,
    Lane.idle] at h

/-! ## Witnesses: marks and reports -/

/-- A SEAL of mark 9 with expected length 40. -/
def sealOf : List Byte := [0, 0, 0, 9, 0, 0, 0, 0, 0, 40]

theorem witness_MarkOpensAndSealStores :
    ((takes (at_ 1 { act with mark := markIn .open_ false }) .mark 1 [0, 0, 0, 1] ∧
        ((at_ 1 { act with mark := markIn .open_ false }).slot 1).mark.phase ≠ .none) ∧
      (takes (at_ 1 { act with waiting := some (rep .clean) }) .mark 1 [0, 0, 0, 1] ∧
        ¬ (((at_ 1 { act with waiting := some (rep .clean) }).slot 1).mark.phase ≠ .none ∨
          (at_ 1 { act with waiting := some (rep .clean) }).markerWaits 1 = true ∨
          ((at_ 1 { act with waiting := some (rep .clean) }).slot 1).ended ≠ none) ∧
        ((at_ 1 { act with waiting := some (rep .clean) }).slot 1).waiting ≠ none) ∧
      (takes (at_ 1 (queued 8)) .mark 1 [0, 0, 0, 1] ∧
        ¬ (((at_ 1 (queued 8)).slot 1).mark.phase ≠ .none ∨ (at_ 1 (queued 8)).markerWaits 1 = true ∨
          ((at_ 1 (queued 8)).slot 1).ended ≠ none) ∧
        ((at_ 1 (queued 8)).slot 1).waiting = none ∧ 8 ≤ ((at_ 1 (queued 8)).slot 1).queue.length) ∧
      (takes (at_ 1 (queued 7)) .mark 1 [0, 0, 0, 1] ∧
        (asking (at_ 1 (queued 7)) .mark 1 [0, 0, 0, 1]).Addressed (req .mark 1 [0, 0, 0, 1]) ∧
        ¬ (((at_ 1 (queued 7)).slot 1).mark.phase ≠ .none ∨ (at_ 1 (queued 7)).markerWaits 1 = true ∨
          ((at_ 1 (queued 7)).slot 1).ended ≠ none) ∧
        ((at_ 1 (queued 7)).slot 1).queue.length < 8 ∧ ((at_ 1 (queued 7)).slot 1).interval = some 10)) ∧
      (takes (at_ 1 act) .seal 1 sealOf ∧ ((at_ 1 act).slot 1).mark.phase = .none) ∧
      (takes (at_ 1 (withMark .sealing false none)) .seal 1 sealOf ∧
        ((at_ 1 (withMark .sealing false none)).slot 1).mark.phase = .sealing ∧
        ((at_ 1 (withMark .sealing false none)).slot 1).mark.id = some (field sealOf 0 4)) ∧
      (takes (at_ 1 (withMark .open_ false none)) .seal 1 sealOf ∧
        (asking (at_ 1 (withMark .open_ false none)) .seal 1 sealOf).Addressed (req .seal 1 sealOf) ∧
        ((at_ 1 (withMark .open_ false none)).slot 1).mark.phase = .open_ ∧
        ((at_ 1 (withMark .open_ false none)).slot 1).mark.id = some (field sealOf 0 4) ∧
        ((at_ 1 (withMark .open_ false none)).slot 1).mark.cut = false) :=
  ⟨by decide +kernel, by decide +kernel⟩

/-- A stream with an open, cut mark whose span has that set, and container 9 OPEN. -/
def sealable (deps : List Nat) : State :=
  crowd 127 ((at_ 1 (withMark .open_ true (some (span deps)))).setContainer 9 (box .open_ 1))

theorem witness_SealClosesOrCompletes :
    (takes (sealable [9]) .seal 1 sealOf ∧ (asking (sealable [9]) .seal 1 sealOf).Addressed (req .seal 1 sealOf) ∧
        ((sealable [9]).slot 1).mark.phase = .open_ ∧ ((sealable [9]).slot 1).mark.id = some (field sealOf 0 4) ∧
        ((sealable [9]).slot 1).mark.cut = true ∧ ((sealable [9]).slot 1).ended = some (span [9]) ∧
        (span [9]).outstanding = 0 ∧ (span [9]).deps = [9] ∧ ((sealable [9]).container 9).state = .open_ ∧
        ((sealable [9]).container 9).group = some 2 ∧ (sealable [9]).place.held = none ∧
        (sealable [9]).link.notices.length < 128) ∧
      (takes (crowd 128 (sealable [9])) .seal 1 sealOf ∧ 128 ≤ (crowd 128 (sealable [9])).link.notices.length) ∧
      (takes (plc (sealable [9]) (fun x => { x with held := some .apply })) .seal 1 sealOf ∧
        (plc (sealable [9]) (fun x => { x with held := some .apply })).place.held ≠ none) ∧
      (takes ((sealable [8, 9]).setContainer 8 { box .open_ 1 with group := some 0 }) .seal 1 sealOf ∧
        (((sealable [8, 9]).setContainer 8 { box .open_ 1 with group := some 0 }).slot 1).mark.phase = .open_) ∧
      (takes (sealable []) .seal 1 sealOf ∧ ((sealable []).slot 1).ended = some (span []) ∧
        (span []).deps = [] ∧ (span []).endOff = some 40 ∧ (span []).tainted = false ∧
        ((sealable []).slot 1).lengthCheck = some true) := by
  decide +kernel

/-- A stream with a report in its slot and another waiting. -/
def twoReports : Slot := { act with reportSlot := some (rep .clean, 3), waiting := some (rep .mismatch) }
/-- Such a stream in the state given, a CLEAN report waiting, while a SURGE is held. -/
def surging (st : SlotState) : State :=
  crowd 127 { at_ 1 { twoReports with state := st, waiting := some (rep .clean) } with
    monitor := ⟨[], some ⟨5, 600, 335, 256⟩⟩ }
/-- Lane 4 stands at the END marker of the stream as given. -/
def atItsEnd (v : Slot) : State :=
  (crowd 127 (at_ 1 { v with queue := [.endMark 0] })).setLane 4 (lane (.endMark 0) [] ⟨0, 0, 0, []⟩ true)

theorem atItsEnd_lane {v : Slot} (m : Nat) (hm : m ≠ 4) : (atItsEnd v).lane m = Lane.idle := by
  simp [atItsEnd, crowd, at_, State.lane, State.setLane, State.setSlot, tableGet_tableSet, hm, svc, State.reset,
    tableGet]

theorem witness_ReportsEnterTheirSlots :
    ((takes (at_ 1 act) .ackReport 1 [] ∧ (asking (at_ 1 act) .ackReport 1 []).Addressed (req .ackReport 1 []) ∧
          ((at_ 1 act).slot 1).reportSlot = none) ∧
        (takes (at_ 1 { act with reportSlot := some (rep .clean, 3) }) .ackReport 1 [] ∧
          ((at_ 1 { act with reportSlot := some (rep .clean, 3) }).slot 1).waiting = none ∧
          ((at_ 1 { act with reportSlot := some (rep .clean, 3) }).slot 1).state = .active) ∧
        (takes (at_ 1 { unread with madeBatch := some bat }) .ackReport 1 [] ∧
          ((at_ 1 { unread with madeBatch := some bat }).slot 1).madeBatch ≠ none) ∧
        (takes (crowd 128 (at_ 1 unread)) .ackReport 1 [] ∧ 128 ≤ (crowd 128 (at_ 1 unread)).link.notices.length) ∧
        (takes (crowd 127 (at_ 1 unread)) .ackReport 1 [] ∧
          (asking (crowd 127 (at_ 1 unread)) .ackReport 1 []).Addressed (req .ackReport 1 []) ∧
          ((crowd 127 (at_ 1 unread)).slot 1).state = .draining ∧ ((crowd 127 (at_ 1 unread)).slot 1).finalMade = true ∧
          ((crowd 127 (at_ 1 unread)).slot 1).madeBatch = none ∧ ((crowd 127 (at_ 1 unread)).slot 1).waiting = none ∧
          ((crowd 127 (at_ 1 unread)).slot 1).heldReport = none ∧
          ((crowd 127 (at_ 1 unread)).slot 1).branch = some 5 ∧ (crowd 127 (at_ 1 unread)).laneHolds 1 = false ∧
          (crowd 127 (at_ 1 unread)).link.notices.length < 128)) ∧
      (∃ w, takes (atItsEnd unread) .ackReport 1 [] ∧ ((atItsEnd unread).slot 1).state = .draining ∧
        ((atItsEnd unread).lane 4).work = some w ∧ w.slot = 1 ∧
        ∀ m, m ≠ 4 → ∀ w', ((atItsEnd unread).lane m).work = some w' → w'.slot ≠ 1) ∧
      (takes (crowd 127 (at_ 1 twoReports)) .ackReport 1 [] ∧
        ((at_ 1 twoReports).slot 1).reportSlot = some (rep .clean, 3) ∧
        ((at_ 1 twoReports).slot 1).waiting = some (rep .mismatch) ∧
        (crowd 127 (at_ 1 twoReports)).link.notices.length < 128) ∧
      (takes (surging .draining) .ackReport 1 [] ∧
        (asking (surging .draining) .ackReport 1 []).Addressed (req .ackReport 1 []) ∧
        ((surging .draining).slot 1).waiting = some (rep .clean) ∧ (surging .draining).monitor.surgeHeld ≠ none ∧
        (surging .draining).link.notices.length < 128) ∧
      (takes (crowd 128 (at_ 1 twoReports)) .ackReport 1 [] ∧
        128 ≤ (crowd 128 (at_ 1 twoReports)).link.notices.length) ∧
      (∃ s : State, s.link.requests = [req .ackReport 1 []] ∧ s.ctl.pinHeld = false ∧ s.marks.ackHeld = true ∧
        s.marks.handOns ≠ [] ∧ s.Addressed (req .ackReport 1 []) ∧ (s.slot 1).waiting = some (rep .mismatch) ∧
        s.link.notices.length < 128) ∧
      ∃ s : State, s.ctl.dev = .service ∧ s.ctl.pinHeld = false ∧ (s.slot 1).state ≠ .free ∧
        (s.slot 1).heldReport = some (rep .clean) ∧ s.link.notices.length < 128 :=
  ⟨by decide +kernel,
    ⟨_, by decide +kernel, by decide +kernel, rfl, rfl, fun m hm w' h => by simp [atItsEnd_lane m hm, Lane.idle] at h⟩,
    by decide +kernel, by decide +kernel, by decide +kernel,
    ⟨asking (crowd 127 { at_ 1 twoReports with marks := ⟨true, [⟨1, 5, 0, 0⟩]⟩ }) .ackReport 1 [], by decide +kernel⟩,
    crowd 127 (at_ 1 { act with heldReport := some (rep .clean) }), by decide +kernel⟩

/-- A stream whose mark reaches its limit at the next tick. -/
def atLimit (cut : Bool) : Slot :=
  { act with mark := ⟨.open_, some 9, some 40, cut, none, 19999, 20000⟩, ended := some (span [9]) }

theorem witness_TimerLimitEndsInViolation :
    (∃ s : State, s.ctl.dev = .service ∧ s.ctl.pinHeld = false ∧ (s.slot 1).mark.phase ≠ .none ∧
        (s.slot 1).mark.limit ≤ (s.slot 1).mark.timer + 1 ∧ (s.slot 1).branch = some 5 ∧
        (s.slot 1).mark.id = some 9 ∧ (s.slot 1).mark.cut = true ∧
        (s.slot 1).ended = some (span [9]) ∧ (s.slot 1).reportSlot = none ∧ s.link.notices.length < 128) ∧
      (∃ s : State, s.ctl.dev = .service ∧ (s.slot 1).mark.phase ≠ .none ∧ (s.slot 1).mark.cut = false ∧
        (s.slot 1).current = some (.fresh 0 0) ∧ (s.slot 1).reportSlot = none ∧ 128 ≤ s.link.notices.length) ∧
      (∃ s : State, s.ctl.dev = .service ∧ (s.slot 1).mark.phase ≠ .none ∧ s.place.held = some (.seal 1) ∧
        (s.slot 1).branch = some 5 ∧ (s.slot 1).ended = some (span [9])) ∧
      ∃ s : State, s.ctl.dev = .service ∧ (s.slot 1).mark.phase ≠ .none ∧ (s.slot 1).reportSlot ≠ none ∧
        (s.slot 1).mark.limit ≤ (s.slot 1).mark.timer + 1 :=
  ⟨⟨crowd 127 (at_ 1 (atLimit true)), by decide +kernel⟩,
    ⟨crowd 128 (at_ 1 { atLimit false with ended := none }), by decide +kernel⟩,
    ⟨plc (at_ 1 (atLimit true)) (fun x => { x with held := some (.seal 1) }), by decide +kernel⟩,
    at_ 1 { atLimit true with reportSlot := some (rep .clean, 0) }, by decide +kernel⟩

/-! ## Witnesses: time and verdict batches -/

/-- A stream mid-way in its pacing period and its mark's time, with a report at the greatest age. -/
def running : Slot :=
  { act with mark := ⟨.open_, some 9, some 40, false, none, 19998, 20000⟩, reportSlot := some (rep .clean, 4294967295) }

/-- A stream one tick below its period. -/
def matching : Slot := { act with pacingCounter := 1 }

theorem witness_TicksCountAndMatch :
    (∃ s : State, s.ctl.dev = .service ∧ s.ctl.pinHeld = false ∧ tableWf Slot.free s.slots = true ∧
        (∀ n, (s.slot n).state ≠ .free → (s.slot n).finalMade = false →
          (s.slot n).activePacing ≠ some ((s.slot n).pacingCounter + 1)) ∧
        ∀ n, (s.slot n).mark.phase ≠ .none → (s.slot n).mark.timer + 1 < (s.slot n).mark.limit) ∧
      flt.ctl.dev ≠ .service ∧
      (∃ s : State, s.ctl.dev = .service ∧ s.ctl.pinHeld = false ∧ (s.slot 64).state = .active ∧
        (s.slot 64).finalMade = false ∧ (s.slot 64).activePacing = some ((s.slot 64).pacingCounter + 1) ∧
        (s.slot 64).filled = []) ∧
      (∃ s : State, s.ctl.dev = .service ∧ (s.slot 64).activePacing = some ((s.slot 64).pacingCounter + 1) ∧
        (s.slot 64).filled ≠ [] ∧ (s.slot 64).madeBatch = none) ∧
      (∃ s : State, s.ctl.dev = .service ∧ (s.slot 64).state = .draining ∧ (s.slot 64).finalMade = false ∧
        (s.slot 64).activePacing = some ((s.slot 64).pacingCounter + 1) ∧ (s.slot 64).filled ≠ []) ∧
      ∃ s : State, s.ctl.dev = .service ∧ (s.slot 64).activePacing = some ((s.slot 64).pacingCounter + 1) ∧
        (s.slot 64).filled ≠ [] ∧ (s.slot 64).madeBatch ≠ none :=
  ⟨⟨at_ 1 running, by decide +kernel, by decide +kernel, by decide +kernel,
      fun n => tableGet_forall (P := fun v : Slot =>
        v.state ≠ .free → v.finalMade = false → v.activePacing ≠ some (v.pacingCounter + 1)) (by decide +kernel)
          (by decide +kernel) n,
      fun n => tableGet_forall (P :=
        fun v : Slot => v.mark.phase ≠ .none → v.mark.timer + 1 < v.mark.limit) (by decide +kernel)
        (by decide +kernel) n⟩, by decide +kernel,
    ⟨at_ 64 matching, by decide +kernel⟩, ⟨at_ 64 { matching with filled := [ver] }, by decide +kernel⟩,
    ⟨at_ 64 { matching with state := .draining, filled := [ver] }, by decide +kernel⟩,
    at_ 64 { matching with filled := [ver], madeBatch := some bat }, by decide +kernel⟩

/-! ## Witnesses: the lane scheduler and the lanes -/

/-- A device with one stream that waits for a lane, in a frame of that length. -/
def granting (frame : Nat) : State := { at_ 64 (queued 1) with sched := ⟨frame, 0, 1⟩ }

theorem eligible_64 (f m : Nat) (h : (granting f).eligible m = true) : m = 64 := by
  by_contra hm
  have : (granting f).slot m = Slot.free := by simp [granting, at_, State.slot, State.setSlot, tableGet_tableSet, hm,
    svc, State.reset, tableGet]
  simp [State.eligible, this, Slot.free] at h

theorem witness_GrantsFollowTheFrames :
    (∃ s : State, s.ctl.dev = .service ∧ s.ctl.pinHeld = false ∧ s.LowestIdle 1 ∧ s.sched.startSlot = 1 ∧
        ¬ s.FrameOver ∧ s.eligible 64 = true ∧ 0 < (s.slot 64).budget ∧
        (∀ m, 1 ≤ m → m ≤ 64 → s.eligible m = true → 0 < (s.slot m).budget →
          (64 + 64 - s.sched.startSlot) % 64 ≤ (m + 64 - s.sched.startSlot) % 64) ∧
        (s.slot 64).queue = [.data 0 [1]] ∧ (s.slot 64).ctx = some ⟨0, 0, 0, []⟩ ∧ (s.slot 64).profile = some prof) ∧
      ∃ s : State, s.ctl.dev = .service ∧ s.ctl.pinHeld = false ∧ s.LowestIdle 1 ∧ s.FrameOver ∧
        s.eligible 64 = true := by
  refine ⟨⟨granting 64, rfl, rfl, ⟨by decide +kernel, by decide +kernel, by decide +kernel, fun k h1 h2 => by omega⟩,
    rfl, ?_, by decide +kernel,
    by decide +kernel, fun m h1 h2 h3 _ => by rw [eligible_64 _ m h3], by decide +kernel, by decide +kernel,
      by decide +kernel⟩,
    granting 0, rfl, rfl, ⟨by decide +kernel, by decide +kernel, by decide +kernel, fun k h1 h2 => by omega⟩,
      .inl (by decide +kernel),
    by decide +kernel⟩
  rintro (h | ⟨h, -⟩)
  · exact absurd h (by decide +kernel)
  · exact absurd (h 64 (by decide +kernel) (by decide +kernel) (by decide +kernel)) (by decide +kernel)

/-- A context of one byte. -/
def one : Ctx := ⟨1, 1, 0, [0]⟩
/-- A WORKING lane with three bytes to take. -/
def cutting (lookups : Nat) : State :=
  idx ((at_ 1 { act with queue := [.data 0 [0, 0, 0]] }).setLane 4 (lane (.data 0 [0, 0, 0]) [0, 0, 0] ⟨0, 0, 0,
    []⟩ false))
    (fun x => { x with lookups := List.replicate lookups (ql .queued none 0) })

theorem witness_CutsBecomeLookups :
    (∃ (s : State) (w : Work) (cut : CutReason) (l : Lookup), s.ctl.dev = .service ∧ s.ctl.pinHeld = false ∧
        s.lane 4 = ⟨.working, some w⟩ ∧ w.entry = .data 0 [0, 0, 0] ∧ w.rest = [0] ++ 0 :: [0] ∧
        NoCut w.profile w.ctx [0] ∧ cutTest w.profile (w.ctx.taking w.profile ([0] ++ [0])) = some cut ∧
        s.Submits w.slot (w.ctx.taking w.profile ([0] ++ [0])) cut l ∧
        s.index.lookups.length + s.waitOrder.length < 64) ∧
      (64 ≤ (cutting 64).index.lookups.length + (cutting 64).waitOrder.length ∧
        (cutting 64).lane 4 = lane (.data 0 [0, 0, 0]) [0, 0, 0] ⟨0, 0, 0, []⟩ false) ∧
      ∃ (s : State) (w : Work), s.ctl.dev = .service ∧ s.ctl.pinHeld = false ∧ s.waitOrder = [4] ∧
        s.lane 4 = ⟨.waiting, some w⟩ ∧ w.held = some (lk 6) ∧ w.entry = .data 0 [0, 0, 0] ∧
        s.index.lookups.length < 64 := by
  refine ⟨⟨cutting 63, _, .strict, ⟨1, 0, 0, 2, Config.fingerprint [0, 0], .strict,
    (Config.fingerprint [0, 0]).toNat / 2 ^ 104 / 4⟩, rfl, rfl, rfl, rfl, rfl, ?_, by decide +kernel,
    ⟨rfl, ⟨_, rfl, rfl⟩, by decide +kernel, by decide +kernel, rfl, rfl, rfl⟩, by decide +kernel⟩, by decide +kernel,
    { (cutting 63).setLane 4 ⟨.waiting, some ⟨1, .data 0 [0, 0, 0], [0], prof, one, false, some (lk 6)⟩⟩ with
      waitOrder := [4] }, _, rfl, rfl, rfl, rfl, rfl, rfl, by decide +kernel⟩
  intro pre hp hpre
  obtain ⟨t, ht⟩ := hpre
  match pre with
  | [] => exact absurd rfl hp
  | [a] => simp at ht; obtain ⟨rfl, -⟩ := ht; decide +kernel
  | a :: b :: u => simp at ht

/-- A stream with one entry, which lane 4 holds. -/
def working (v : Slot) (e : Entry) (x : Ctx) (done : Bool) : State :=
  (at_ 1 { v with queue := [e] }).setLane 4 (lane e [] x done)

/-- An ABORTING stream with an open mark and one entry, which lane 4 holds. -/
def lettingGo : State := working { withMark .open_ false none with state := .aborting } (.data 0 [0]) one false

theorem witness_BytesAreTakenUntilTheEntryEnds :
    (((⟨0, 4, 0, []⟩ : Ctx).len = prof.lmax ∧
      ((⟨2, 2, 0, []⟩ : Ctx).len ≠ prof.lmax ∧ prof.lmin ≤ (⟨2, 2, 0, []⟩ : Ctx).len ∧
        (⟨2, 2, 0, []⟩ : Ctx).len < prof.ltgt ∧ 2 ^ prof.ks ∣ (⟨2, 2, 0, []⟩ : Ctx).hash.toNat) ∧
      ((⟨2, 3, 0, []⟩ : Ctx).len ≠ prof.lmax ∧ prof.ltgt ≤ (⟨2, 3, 0, []⟩ : Ctx).len ∧
        2 ^ prof.kl ∣ (⟨2, 3, 0, []⟩ : Ctx).hash.toNat) ∧
      ((⟨2, 1, 0, []⟩ : Ctx).len < prof.ltgt ∧ (⟨2, 1, 0, []⟩ : Ctx).len < prof.lmin) ∧
      (prof.ltgt ≤ (⟨1, 3, 0, []⟩ : Ctx).len ∧ ¬ 2 ^ prof.kl ∣ (⟨1, 3, 0, []⟩ : Ctx).hash.toNat)) ∧
      (mkProfile 256 256 1024 8 6 7).gear = gearTable 7) ∧
      ((working act (.data 0 [0]) one false).ctl.dev = .service ∧
        (working act (.data 0 [0]) one false).lane 4 = lane (.data 0 [0]) [] one false ∧
        ((working act (.data 0 [0]) one false).slot 1).state = .active ∧ NoCut prof one []) ∧
      (working act (.mark 1) one true).lane 4 = lane (.mark 1) [] one true ∧
      (atItsEnd { act with state := .draining }).lane 4 = lane (.endMark 0) [] ⟨0, 0, 0, []⟩ true ∧
      (lettingGo.lane 4 = lane (.data 0 [0]) [] one false ∧ (lettingGo.slot 1).state = .aborting ∧
        lettingGo.ctl.dev = .service ∧ NoCut prof one []) ∧
      ((working { act with state := .aborting, reserved := 1 } (.data 0 [0]) one false).lane 4 =
        lane (.data 0 [0]) [] one false) ∧
      (working { batched with state := .aborting } (.data 0 [0]) one false).lane 4 =
        lane (.data 0 [0]) [] one false := by
  have noCut : NoCut prof one [] := fun pre hp hpre => absurd (List.prefix_nil.1 hpre) hp
  exact ⟨⟨by decide +kernel, rfl⟩,
    ⟨by decide +kernel, by decide +kernel, by decide +kernel, noCut⟩, by decide +kernel, by decide +kernel,
    ⟨by decide +kernel, by decide +kernel, by decide +kernel, noCut⟩, by decide +kernel, by decide +kernel⟩

/-- The lookup queue full. -/
def fullQueue (s : State) : State := idx s (fun x => { x with lookups := List.replicate 64 (ql .queued none 0) })

/-- Lane 4 waits with a marker of slot 1 and its finished lookup. -/
def joining (v : Slot) (e : Entry) : State :=
  { (at_ 1 { v with queue := [e] }).setLane 4 ⟨.waiting, some ⟨1, e, [], prof, one, false, some (lk 6)⟩⟩ with
    waitOrder := [4] }

theorem witness_MarkersAreConsumed :
    (∀ v ∈ [withMark .open_ false none, withMark .sealing false none, { act with state := .aborting },
          { act with current := some { Span.fresh 0 0 with retired := true } },
          { act with current := some { Span.fresh 0 0 with retired := true, outstanding := 1 } }],
        (working v (.mark 40) ⟨0, 0, 40, []⟩ false).ctl.dev = .service ∧
          (working v (.mark 40) ⟨0, 0, 40, []⟩ false).ctl.pinHeld = false ∧
          (working v (.mark 40) ⟨0, 0, 40, []⟩ false).lane 4 = lane (.mark 40) [] ⟨0, 0, 40, []⟩ false ∧
          ((working v (.mark 40) ⟨0, 0, 40, []⟩ false).slot 1).current ≠ none) ∧
      (∀ e ∈ [Entry.mark 1, Entry.endMark 1], ∃ (s : State) (l : Lookup), s.ctl.dev = .service ∧
        s.lane 4 = lane e [] one false ∧ 0 < one.len ∧ s.Submits 1 one .mark l ∧ s.Submits 1 one .endCut { l with cut :=
          .endCut } ∧ s.index.lookups.length + s.waitOrder.length < 64) ∧
      (∀ e ∈ [Entry.mark 1, Entry.endMark 1], ∃ (s : State) (l : Lookup), s.ctl.dev = .service ∧
        s.lane 4 = lane e [] one false ∧ s.Submits 1 one .mark l ∧ s.Submits 1 one .endCut { l with cut := .endCut } ∧
        ¬ s.index.lookups.length + s.waitOrder.length < 64) ∧
      (∀ st ∈ [SlotState.draining, SlotState.aborting],
        (working { act with state := st } (.endMark 1) ⟨0, 0, 1, []⟩ false).lane 4 =
            lane (.endMark 1) [] ⟨0, 0, 1, []⟩ false ∧
          ((working { act with state := st } (.endMark 1) ⟨0, 0, 1, []⟩ false).slot 1).current ≠ none) ∧
      ∀ e ∈ [Entry.mark 1, Entry.endMark 1], ∃ w, (joining act e).ctl.dev = .service ∧
        (joining act e).ctl.pinHeld = false ∧ (joining act e).waitOrder = [4] ∧
        (joining act e).lane 4 = ⟨.waiting, some w⟩ ∧ w.held = some (lk 6) ∧ w.entry = e ∧ (lk 6).slot = w.slot ∧
        (joining act e).index.lookups.length < 64 ∧ ((joining act e).slot w.slot).current ≠ none := by
  refine ⟨by decide +kernel, fun e he => ?_, fun e he => ?_, by decide +kernel, fun e he => ?_⟩
  · exact ⟨working act e one false, ⟨1, 0, 0, 1, Config.fingerprint [0], .mark,
      (Config.fingerprint [0]).toNat / 2 ^ 104 / 4⟩, rfl, rfl, by decide, ⟨rfl, ⟨_, rfl, rfl⟩, rfl, rfl, rfl, rfl, rfl⟩,
      ⟨rfl, ⟨_, rfl, rfl⟩, rfl, rfl, rfl, rfl, rfl⟩,
      show 0 + 0 < 64 by decide⟩
  · exact ⟨fullQueue (working act e one false), ⟨1, 0, 0, 1, Config.fingerprint [0], .mark,
      (Config.fingerprint [0]).toNat / 2 ^ 104 / 4⟩, rfl, rfl, ⟨rfl, ⟨_, rfl, rfl⟩, rfl, rfl, rfl, rfl, rfl⟩,
      ⟨rfl, ⟨_, rfl, rfl⟩, rfl, rfl, rfl, rfl, rfl⟩,
      show ¬ 64 + 0 < 64 by decide⟩
  · exact ⟨_, rfl, rfl, rfl, rfl, rfl, rfl, rfl, show 0 < 64 by decide, nofun⟩

/-! ## Witnesses: the fingerprint index -/

/-- Two lookups of one bucket and a release item that waits. -/
def claiming (passed : Nat) (st : LookupState) : State :=
  idx svc (fun x => { x with
    lookups := [ql .reading none 6, ql st none 7], inflight := [6], passed := passed
    releases := [⟨0, 65536, 5, 7, true⟩], tally := some ⟨7, 5, 0, 0, 0⟩ })

theorem claiming_claims (passed : Nat) : (claiming passed .pending).LookupClaims 1 := by
  refine ⟨ql .pending none 7, rfl, rfl, fun j q' hj hq => ?_, ?_, fun h hh => ?_⟩
  · obtain rfl : j = 0 := by omega
    cases hq; decide
  · show 7 ∉ [6]
    decide
  · cases hh; decide

theorem claiming_zero (passed : Nat) (st : LookupState) : ¬ (claiming passed st).LookupClaims 0 := by
  rintro ⟨q, h, hs, -⟩
  cases h; cases hs

theorem witness_PortGrantsInOrder :
    (svc.ctl.dev = .service ∧ svc.ctl.pinHeld = false ∧ svc.walker.sweeping = false ∧
        (claiming 7 .pending).LookupClaims 1 ∧
        (claiming 7 .pending).index.lookups[1]? = some (ql .pending none 7) ∧
        (∀ j, j < 1 → ¬ (claiming 7 .pending).LookupClaims j) ∧ (claiming 7 .pending).index.passed < 8) ∧
      ((claiming 8 .pending).ReleaseClaims ⟨0, 65536, 5, 7, true⟩ ∧ 8 ≤ (claiming 8 .pending).index.passed) ∧
      (claiming 0 .read).ReleaseClaims ⟨0, 65536, 5, 7, true⟩ ∧
      ∃ s : State, s.ctl.dev = .service ∧ s.walker.sweeping = true ∧ s.index.other = none ∧
        s.walker.position ∉ s.index.inflight ∧ (∀ j, ¬ s.LookupClaims j) ∧ ∀ it, ¬ s.ReleaseClaims it := by
  -- The first state also meets the clauses by which a claiming lookup keeps the other two from the port.
  refine ⟨⟨rfl, rfl, rfl, claiming_claims 7, rfl, fun j hj => ?_, by decide +kernel⟩, by decide +kernel,
    by decide +kernel, { svc with walker := ⟨true, 4194303⟩ }, rfl, rfl, rfl, by decide +kernel, ?_, ?_⟩
  · obtain rfl : j = 0 := by omega
    exact claiming_zero 7 .pending
  · rintro j ⟨q, h, -⟩
    cases h
  · rintro it ⟨h, -⟩
    cases h

/-- Lookups in the queue, the first as given. -/
def looking (s : State) (q : List QLookup) : State := idx s (fun x => { x with lookups := q, inflight := [6] })

theorem witness_ReadsCompleteWithTheSearch :
    ((looking svc [ql .reading none 6]).index.lookups[0]? = some (ql .reading none 6) ∧
        (looking svc [ql .reading none 6]).ctl.dev = .service ∧
        ∀ h, (looking svc [ql .reading none 6]).index.lookups[0]? = some h → h.state ≠ .blocked) ∧
      ((looking svc [ql .blocked none 6, ql .reading none 6]).index.lookups[1]? = some (ql .reading none 6) ∧
        (looking svc [ql .blocked none 6, ql .reading none 6]).index.lookups[0]? = some (ql .blocked none 6)) ∧
      ((looking flt [ql .reading none 6]).ctl.dev = .fault ∧
        (looking flt [ql .reading none 6]).index.lookups[0]? = some (ql .reading none 6)) ∧
      (((svc.setBucket 6 ⟨[ent 1], 0⟩).bucket 6).entries = [] ++ ent 1 :: [] ∧ (ent 1).length = 100) ∧
      ((∀ x ∈ ((svc.setBucket 6 ⟨[other 1], 1⟩).bucket 6).entries, ¬ (x.fp = (ent 1).fp ∧ x.length = 100)) ∧
        0 < ((svc.setBucket 6 ⟨[other 1], 1⟩).bucket 6).spill) ∧
      (svc.bucket 6).spill = 0 := by
  refine ⟨⟨rfl, rfl, ?_⟩, by decide +kernel, by decide +kernel, by decide +kernel, by decide +kernel,
    by decide +kernel⟩
  intro h hh
  cases hh; decide

/-- A READ lookup at the head that found an entry with that count in container 9, of state `st`. -/
def applying (refs : Nat) (st : ContState) : State :=
  looking ((at_ 1 { act with reserved := 1 }).setContainer 9 (box st 1)) [ql .read (some ⟨some (ent refs, false), 1⟩) 6]

/-- The same of the stream as given, in a span of which it is the last lookup. -/
def applyingTo (v : Slot) : State := (applying 1 .durable).setSlot 1 { v with reserved := 1 }

/-- Streams whose last lookup is in hand: ACTIVE, DRAINING and ABORTING, with an ended, a retired and a sealed span. -/
def lasts : List Slot :=
  [act, { act with state := .draining, endConsumed := true }, { act with state := .aborting },
    { act with current := some (.fresh 1 40), ended := some { span [] with outstanding := 1 } },
    { act with
      state := .aborting, current := some (.fresh 1 40)
      ended := some { Span.fresh 0 0 with retired := true, outstanding := 1 } },
    { act with
      mark := markIn .sealing true, current := some (.fresh 1 40), ended := some { span [9] with outstanding := 1 } }]

theorem witness_ApplyDecidesDup :
    (applying 65535 .durable).ctl.dev = .service ∧ (applying 65535 .durable).ctl.pinHeld = false ∧
      (applying 65535 .durable).index.lookups = [ql .read (some ⟨some (ent 65535, false), 1⟩) 6] ∧
      (applying 65535 .durable).place.held ≠ some .apply ∧
      ((applying 65535 .durable).container (ent 65535).container).state ∈
        [ContState.durable, ContState.open_, ContState.full] ∧
      ((applying 65534 .full).container (ent 65534).container).state ∈
        [ContState.durable, ContState.open_, ContState.full] ∧
      (∀ v ∈ lasts, (applyingTo v).ctl.dev = .service ∧ (applyingTo v).ctl.pinHeld = false ∧
        (applyingTo v).index.lookups = [ql .read (some ⟨some (ent 1, false), 1⟩) 6] ∧
        (applyingTo v).place.held ≠ some .apply ∧ ((applyingTo v).slot 1).state = v.state ∧
        ((applyingTo v).container (ent 1).container).state = .durable) ∧
      (looking ((applying 1 .open_).setBucket 6 ⟨[], 1⟩) [ql .read (some ⟨some (ent 1, true), 8⟩) 6]).index.lookups =
        [ql .read (some ⟨some (ent 1, true), 8⟩) 6] ∧
      (plc (applying 1 .open_) (fun x => { x with held := some .request })).place.held ≠ some .apply := by
  decide +kernel

/-- A READ lookup at the head that found nothing, in a bucket of `count` entries. -/
def missing (count : Nat) (spill : Nat) (op : Option Nat) (list : List Nat) : State :=
  plc (idx (looking (at_ 1 { act with reserved := 1 }) [ql .read (some ⟨none, count⟩) 6])
    (fun x => { x with spillCount := spill }))
    (fun p => { p with
      openPlaces := op.elim [] (fun c => [(2, some c)]), freeList := list, containers := [(9, box .open_ 1)] })

theorem witness_ApplyDecidesNewOrPass :
    ((missing 7 0 (some 9) []).ctl.dev = .service ∧ (missing 7 0 (some 9) []).ctl.pinHeld = false ∧
        (missing 7 0 (some 9) []).index.lookups = [ql .read (some ⟨none, 7⟩) 6] ∧
        (missing 7 0 (some 9) []).place.held = none ∧ (lk 6).bucket = bucketOf (lk 6).fp ∧
        ((missing 7 0 (some 9) []).slot 1).group = some 2 ∧ (missing 7 0 (some 9) []).openPlace 2 = some 9 ∧
        ((missing 7 0 (some 9) []).container 9).fill + (lk 6).length ≤
          ((missing 7 0 (some 9) []).container 9).capacity) ∧
      (∀ v ∈ lasts, ((missing 7 0 (some 9) []).setSlot 1 v).index.lookups = [ql .read (some ⟨none, 7⟩) 6] ∧
        (((missing 7 0 (some 9) []).setSlot 1 v).slot 1).group = some 2 ∧
        ((missing 7 0 (some 9) []).setSlot 1 v).place.held = none ∧
        ((missing 7 0 (some 9) []).setSlot 1 v).openPlace 2 = some 9) ∧
      ((missing 7 0 none [8]).openPlace 2 = none ∧ (missing 7 0 none [8]).place.freeList = [8]) ∧
      ((missing 8 65535 (some 9) []).index.spillCount < 65536 ∧ (missing 8 65535 (some 9) []).openPlace 2 = some 9) ∧
      ((missing 8 65536 none []).index.lookups = [ql .read (some ⟨none, 8⟩) 6] ∧
        65536 ≤ (missing 8 65536 none []).index.spillCount ∧
        (plc (missing 8 65536 none []) (fun x => { x with held := some .request })).place.held ≠ some .apply) := by
  decide +kernel

/-- That lookup found an entry of container 9, which is LOST with that many entries. -/
def clearing (notices entries : Nat) (held : Option PlaceHold) : State :=
  crowd notices (plc ((applying 1 .lost).setContainer 9 (box .lost entries)) (fun x =>
    { x with held := held, nLost := 1 }))
/-- That lookup found nothing, and its chunk ends one byte beyond the group's OPEN container. -/
def cramped (notices : Nat) (held : Option PlaceHold) : State :=
  crowd notices (plc (missing 7 0 (some 9) []) (fun x => { x with
    held := held, containers := [(9, { box .open_ 1 with fill := 4194205 })] }))

theorem witness_ApplyClearsTheWayFirst :
    ((clearing 127 1 (some .request)).ctl.dev = .service ∧ (clearing 127 1 (some .request)).ctl.pinHeld = false ∧
        (clearing 127 1 (some .request)).index.lookups = [ql .read (some ⟨some (ent 1, false), 1⟩) 6] ∧
        (clearing 127 1 (some .request)).place.held = some .request ∧
        ((clearing 127 1 (some .request)).container (ent 1).container).state = .lost) ∧
      ((clearing 127 2 none).place.held = none ∧ 1 < ((clearing 127 2 none).container 9).entries) ∧
      (((clearing 127 1 none).container 9).entries = 1 ∧ (clearing 127 1 none).link.notices.length < 128) ∧
      (((clearing 128 1 none).container 9).entries = 1 ∧ 128 ≤ (clearing 128 1 none).link.notices.length) ∧
      ((cramped 127 (some .starved)).index.lookups = [ql .read (some ⟨none, 7⟩) 6] ∧
        ((cramped 127 (some .starved)).slot 1).group = some 2 ∧ (cramped 127 (some .starved)).openPlace 2 = some 9 ∧
        ((cramped 127 (some .starved)).container 9).group = some 2 ∧
        ((cramped 127 (some .starved)).container 9).capacity + 1 =
          ((cramped 127 (some .starved)).container 9).fill + (lk 6).length ∧
        (cramped 127 (some .starved)).place.held = some .starved) ∧
      ((cramped 127 none).place.held = none ∧ (cramped 127 none).link.notices.length < 128) ∧
      128 ≤ (cramped 128 none).link.notices.length := by
  decide +kernel

/-- A sealed, cut mark whose span, with that set, waits for one last lookup, which found nothing. -/
def settling (count spill : Nat) (deps : List Nat) : State :=
  crowd 127 ((missing count spill (some 9) []).setSlot 1 { act with
    mark := { markIn .sealing true with sealLen := some 40 }, reserved := 1
    current := some (.fresh 1 40), ended := some { span deps with outstanding := 1 } })

theorem witness_LastApplySettlesTheSeal :
    ((settling 7 0 []).ctl.dev = .service ∧ (settling 7 0 []).ctl.pinHeld = false ∧
        (settling 7 0 []).index.lookups = [ql .read (some ⟨none, 7⟩) 6] ∧ (settling 7 0 []).place.held = none ∧
        (settling 7 0 []).link.notices.length < 128 ∧ ((settling 7 0 []).slot 1).state = .active ∧
        ((settling 7 0 []).slot 1).mark.phase = .sealing ∧ ((settling 7 0 []).slot 1).mark.cut = true ∧
        ((settling 7 0 []).slot 1).group = some 2 ∧ ((settling 7 0 []).slot 1).threshold = some 3 ∧
        ((settling 7 0 []).slot 1).filled.length + 1 < 3 ∧
        ((settling 7 0 []).slot 1).ended = some { span [] with outstanding := 1 } ∧ (span []).number = (lk 6).span ∧
        (span []).retired = false ∧ ((settling 7 0 []).slot 1).current = some (.fresh 1 40) ∧
        (Span.fresh 1 40).number ≠ (lk 6).span ∧ (settling 7 0 []).openPlace 2 = some 9 ∧
        ((settling 7 0 []).container 9).state = .open_ ∧ ((settling 7 0 []).container 9).group = some 2 ∧
        ((settling 7 0 []).container 9).fill + (lk 6).length ≤ ((settling 7 0 []).container 9).capacity) ∧
      ((settling 7 0 [9]).slot 1).ended = some { span [9] with outstanding := 1 } ∧
      ((settling 8 65536 [9]).index.lookups = [ql .read (some ⟨none, 8⟩) 6] ∧
        65536 ≤ (settling 8 65536 [9]).index.spillCount ∧
        ((settling 8 65536 [9]).container 9).state = .open_) ∧
      (((settling 8 65536 []).slot 1).ended = some { span [] with outstanding := 1 } ∧ (span []).endOff = some 40 ∧
        ((settling 8 65536 []).slot 1).mark.sealLen = some 40 ∧ ((settling 8 65536 []).slot 1).mark.id = some 9) := by
  decide +kernel

theorem witness_NoContainerBlocksTheHead :
    (∃ s : State, s.ctl.dev = .service ∧ s.ctl.pinHeld = false ∧
        s.index.lookups = [ql .read (some ⟨none, 7⟩) 6] ∧ s.place.held = none ∧ (s.slot 1).group = some 2 ∧
        s.openPlace 2 = none ∧ s.place.freeList = [] ∧ s.index.starving = none ∧ s.link.notices.length < 128) ∧
      (∃ s : State, s.ctl.dev = .service ∧ s.index.lookups = [ql .read (some ⟨none, 7⟩) 6] ∧
        s.place.freeList = [] ∧ s.index.starving = none ∧ 128 ≤ s.link.notices.length) ∧
      ∃ s : State, s.ctl.dev = .service ∧ s.index.lookups = [ql .read (some ⟨none, 7⟩) 6] ∧
        s.openPlace 2 = none ∧ s.place.freeList = [] ∧ s.index.starving ≠ none :=
  ⟨⟨crowd 127 (missing 7 0 none []), by decide +kernel⟩, ⟨crowd 128 (missing 7 0 none []), by decide +kernel⟩,
    idx (missing 7 0 none []) (fun x => { x with starving := some 2 }), by decide +kernel⟩

/-- A release operation on bucket 6 for an entry with that count, in container 9 as given. -/
def releasing (refs : Nat) (c : Container) : State :=
  crowd 126 (idx ((svc.setBucket 6 ⟨if refs = 0 then [] else [ent refs], 0⟩).setContainer 9 c) (fun x => { x with
    other := some (.release 6), inflight := [6], releases := [⟨(ent 1).fp, 100, 5, 7, true⟩]
    tally := some ⟨7, 5, 0, 0, 0⟩ }))

/-- Items behind it that can name no entry, the last of its RELEASE among them, and an item of another RELEASE. -/
def releasingMore : State :=
  idx (releasing 0 Container.free) (fun x => { x with
    releases := [⟨(ent 1).fp, 100, 5, 7, false⟩, ⟨0, 0, 5, 7, false⟩, ⟨0, 65537, 5, 7, true⟩, ⟨0, 65536, 5, 8, true⟩] })

theorem witness_ReleaseOperationActsOnTheEntry :
    (((releasing 0 Container.free).ctl.dev = .service ∧
          (releasing 0 Container.free).index.other = some (.release (bucketOf (ent 1).fp)) ∧
          (releasing 0 Container.free).index.releases = [⟨(ent 1).fp, 100, 5, 7, true⟩] ∧
          (releasing 0 Container.free).index.tally = some ⟨7, 5, 0, 0, 0⟩ ∧
          (releasing 0 Container.free).place.held = none ∧ (releasing 0 Container.free).link.notices.length < 128 ∧
          ((releasing 0 Container.free).search 6 (ent 1).fp 100).found = none) ∧
        (((releasing 1 (box .lost 1)).search 6 (ent 1).fp 100).found = some (ent 1, false) ∧
          ((releasing 1 (box .lost 1)).container 9).state = .lost) ∧
        (((releasing 65535 (box .full 1)).search 6 (ent 1).fp 100).found = some (ent 65535, false) ∧
          ((releasing 65535 (box .full 1)).container 9).state ≠ .lost) ∧
        (((releasing 65534 (box .full 1)).search 6 (ent 1).fp 100).found = some (ent 65534, false) ∧
          1 < (ent 65534).refs ∧ (ent 65534).refs ≠ 65535) ∧
        (((releasing 1 (box .durable 2)).search 6 (ent 1).fp 100).found = some (ent 1, false) ∧
          1 < ((releasing 1 (box .durable 2)).container 9).entries) ∧
        (((releasing 1 (box .open_ 1)).container 9).state = .open_ ∧
          ((releasing 1 (box .open_ 1)).container 9).entries = 1) ∧
        (((releasing 1 (box .full 1)).container 9).state = .full ∧
          ((releasing 1 (box .full 1)).container 9).entries = 1) ∧
        (((releasing 1 (box .durable 1)).container 9).state = .durable ∧
          ((releasing 1 (box .durable 1)).container 9).entries = 1 ∧
          (releasing 1 (box .durable 1)).link.notices.length < 128) ∧
        (((crowd 128 (releasing 1 (box .durable 1))).container 9).entries = 1 ∧
          128 ≤ (crowd 128 (releasing 1 (box .durable 1))).link.notices.length) ∧
        (releasingMore.index.other = some (.release (bucketOf (ent 1).fp)) ∧
          releasingMore.index.releases =
            ⟨(ent 1).fp, 100, 5, 7, false⟩ :: [⟨0, 0, 5, 7, false⟩, ⟨0, 65537, 5, 7, true⟩, ⟨0, 65536, 5, 8, true⟩] ∧
          releasingMore.place.held = none ∧ (releasingMore.search 6 (ent 1).fp 100).found = none)) ∧
      ∃ s : State, s.ctl.dev = .service ∧ s.ctl.pinHeld = false ∧ s.index.completeHeld = true ∧
        s.index.tally = some ⟨7, 5, 0, 0, 0⟩ ∧ s.index.releases = [⟨0, 0, 5, 8, true⟩] ∧ s.link.notices.length < 128 :=
  ⟨by decide +kernel, crowd 127 (idx svc (fun x => { x with
      completeHeld := true, tally := some ⟨7, 5, 0, 0, 0⟩, releases := [⟨0, 0, 5, 8, true⟩] })), by decide +kernel⟩

/-- An entry of container 8, and one of container 7. -/
def ent8 : IndexEntry := ⟨5, 60, 8, 0, 1⟩
def ent7 : IndexEntry := ⟨6, 70, 7, 0, 1⟩
/-- A sweep operation on bucket 6: two entries of container 9 and one each of 8 and 7 in the bucket, one of 9 in the
spill table, and one of another bucket there. Container 9 is LOST with three entries, 8 is LOST with two, 7 is FULL. -/
def sweeping : State :=
  crowd 127 (idx ((((({ svc with walker := ⟨true, 4194303⟩, place := { svc.place with nLost := 2 } }.setBucket 6
    ⟨[ent 1, ent7, ent8, other 1], 1⟩).setContainer 9 (box .lost 3)).setContainer 8 (box .lost 2)).setContainer 7
    (box .full 1)).setSpill 2 100 (some ⟨other 2, 6⟩) |>.setSpill 3 60 (some ⟨⟨3, 60, 8, 0, 1⟩, 5⟩)) (fun x =>
      { x with other := some (.sweep 6), inflight := [6] }))

/-- The entries the sweep operation removes. -/
def sweptAway (s : State) (b : Nat) : List IndexEntry :=
  let lost := fun e : IndexEntry => decide ((s.container e.container).state = .lost)
  (s.bucket b).entries.filter lost ++
    ((s.index.spill.filterMap (fun p => p.2)).filter
      (fun x => (x.bucket == b && decide (0 < (s.bucket b).spill)) && lost x.entry)).map SpillEntry.entry

theorem witness_SweepRemovesLostEntries :
    (sweeping.ctl.dev = .service ∧ sweeping.ctl.pinHeld = false ∧ sweeping.place.held = none ∧ sweeping.Canonical ∧
        sweeping.index.other = some (.sweep 6) ∧ sweptAway sweeping 6 = [ent 1, ent8, other 1, other 2]) ∧
      (∀ c, (sweeping.container c).state = .lost →
        ((sweptAway sweeping 6).filter (fun e => e.container == c)).length ≤ (sweeping.container c).entries) ∧
      (((sweptAway sweeping 6).map IndexEntry.container).dedup).filter (fun c => decide
        (((sweptAway sweeping 6).filter (fun e => e.container == c)).length = (sweeping.container c).entries)) = [9] ∧
      [9].length ≤ sweeping.place.nLost ∧ sweeping.link.notices.length + [9].length = 128 := by
  refine ⟨by decide +kernel, fun c h => ?_, by decide +kernel⟩
  have hs : sweptAway sweeping 6 = [ent 1, ent8, other 1, other 2] := by decide +kernel
  rw [hs]
  have : c = 9 ∨ c = 8 ∨ c = 7 ∨ sweeping.container c = Container.free := by
    have hc : sweeping.place.containers = [(7, box .full 1), (8, box .lost 2), (9, box .lost 3)] := by decide +kernel
    simp only [State.container, hc, tableGet]
    grind
  rcases this with rfl | rfl | rfl | h'
  · decide +kernel
  · decide +kernel
  · decide +kernel
  · rw [h'] at h; cases h

/-! ## Witnesses: containers -/

/-- A stream whose span holds container 9, and the container as given. -/
def dependent (notices : Nat) (c : Container) : State :=
  crowd notices ((at_ 1 { act with current := some (span [9]) }).setContainer 9 c)

/-- A sealed, cut mark whose span waits for container 9 alone, which is FULL. -/
def certifying : State :=
  crowd 127 ((at_ 1 { act with
    mark := { markIn .sealing true with sealLen := some 40 }, ended := some (span [9]) }).setContainer 9 (box .full 1))

theorem witness_DurableTakesTheContainerOutOfEverySet :
    (takes (dependent 0 (box .open_ 1)) .durable 0 [0, 9] ∧
        ((dependent 0 (box .open_ 1)).container (field [0, 9] 0 2)).state ≠ .full) ∧
      (takes (dependent 0 (box .full 1)) .durable 0 [0, 9] ∧
        ((dependent 0 (box .full 1)).container (field [0, 9] 0 2)).state = .full ∧
        ((dependent 0 (box .full 1)).container (field [0, 9] 0 2)).entries ≠ 0) ∧
      (takes (dependent 127 (box .full 0)) .durable 0 [0, 9] ∧
        ((dependent 127 (box .full 0)).container (field [0, 9] 0 2)).entries = 0 ∧
        (dependent 127 (box .full 0)).link.notices.length < 128) ∧
      (takes (dependent 128 (box .full 0)) .durable 0 [0, 9] ∧
        128 ≤ (dependent 128 (box .full 0)).link.notices.length) ∧
      (takes rst9 .durable 0 [0, 9] ∧ rst9.ctl.dev ≠ .service) ∧
      (takes certifying .durable 0 [0, 9] ∧ (certifying.container (field [0, 9] 0 2)).state = .full ∧
        (certifying.container (field [0, 9] 0 2)).entries ≠ 0) := by
  decide +kernel

theorem certifying_others {m : Nat} (hm : m ≠ 1) : (certifying.slot m).mark.phase ≠ .sealing := by
  have : certifying.slot m = Slot.free := by
    simp [certifying, crowd, at_, State.slot, State.setSlot, State.setContainer, tableGet_tableSet, hm, svc,
      State.reset, tableGet]
  rw [this]
  decide

theorem witness_DurableCompletesTheCheckpoint :
    takes certifying .durable 0 [0, 9] ∧ certifying.ctl.dev = .service ∧
      (∀ m, m ≠ 1 → (certifying.slot m).mark.phase ≠ .sealing) ∧
      (certifying.container (field [0, 9] 0 2)).state = .full ∧
      (certifying.container (field [0, 9] 0 2)).entries ≠ 0 ∧ (certifying.slot 1).mark.phase = .sealing ∧
      (certifying.slot 1).mark.cut = true ∧ (certifying.slot 1).mark.id = some 9 ∧
      (certifying.slot 1).mark.sealLen = some 40 ∧ (certifying.slot 1).ended = some (span [9]) ∧
      (span [9]).endOff = some 40 ∧ (span [9]).retired = false ∧ (span [9]).outstanding = 0 ∧
      (span [9]).deps = [field [0, 9] 0 2] ∧ (certifying.slot 1).reportSlot = none ∧
      certifying.link.notices.length < 128 := by
  exact ⟨by decide +kernel, by decide +kernel, fun m hm => certifying_others hm, by decide +kernel⟩

theorem witness_LostTaintsItsSpans :
    ((takes (dependent 0 (box .open_ 1)) .lost 0 [0, 9] ∧
          ((dependent 0 (box .open_ 1)).container (field [0, 9] 0 2)).state ≠ .full ∧
          ((dependent 0 (box .open_ 1)).container (field [0, 9] 0 2)).state ≠ .durable) ∧
        (takes rst9 .lost 0 [0, 9] ∧ rst9.ctl.dev ≠ .service) ∧
        (takes (dependent 0 (box .full 1)) .lost 0 [0, 9] ∧
          ((dependent 0 (box .full 1)).container (field [0, 9] 0 2)).entries ≠ 0) ∧
        (takes (dependent 127 (box .durable 0)) .lost 0 [0, 9] ∧
          ((dependent 127 (box .durable 0)).container (field [0, 9] 0 2)).state = .durable ∧
          ((dependent 127 (box .durable 0)).container (field [0, 9] 0 2)).entries = 0 ∧
          (dependent 127 (box .durable 0)).link.notices.length < 128) ∧
        (takes (dependent 128 (box .full 0)) .lost 0 [0, 9] ∧
          128 ≤ (dependent 128 (box .full 0)).link.notices.length) ∧
        (takes certifying .lost 0 [0, 9] ∧ certifying.ctl.dev = .service)) ∧
      (∀ m, m ≠ 1 → (certifying.slot m).mark.phase ≠ .sealing) ∧
      ((certifying.container (field [0, 9] 0 2)).state = .full ∧
        (certifying.container (field [0, 9] 0 2)).entries ≠ 0 ∧ (certifying.slot 1).mark.phase = .sealing ∧
        (certifying.slot 1).mark.cut = true ∧ (certifying.slot 1).mark.id = some 9 ∧
        (certifying.slot 1).ended = some (span [9]) ∧ (span [9]).retired = false ∧ (span [9]).outstanding = 0 ∧
        (span [9]).deps = [field [0, 9] 0 2] ∧ (certifying.slot 1).reportSlot = none ∧
        certifying.link.notices.length < 128) :=
  ⟨by decide +kernel, fun _ hm => certifying_others hm, by decide +kernel⟩

/-- Group 7's OPEN container is number 9. -/
def flushing (notices : Nat) : State :=
  crowd notices ((svc.setContainer 9 { box .open_ 1 with group := some 7 }).setOpenPlace 7 (some 9))

/-- The placement unit holds that event. -/
def holds (s : State) (h : PlaceHold) : State := plc s (fun x => { x with held := some h })

theorem witness_FreeAndFlushActAndHeldEventsGoOn :
    (takes rst9 .free 0 [0, 9] ∧ takes flt .flush 0 [7] ∧ rst9.ctl.dev ≠ .service ∧ flt.ctl.dev ≠ .service) ∧
      ((takes (dependent 0 (box .full 1)) .free 0 [0, 9] ∧
          ((dependent 0 (box .full 1)).container (field [0, 9] 0 2)).state ≠ .reclaimable) ∧
        (takes (dependent 0 (box .reclaimable 0)) .free 0 [0, 9] ∧
          ((dependent 0 (box .reclaimable 0)).container (field [0, 9] 0 2)).state = .reclaimable) ∧
        (takes svc .flush 0 [8] ∧ 7 < field [8] 0 1) ∧
        (takes svc .flush 0 [7] ∧ field [7] 0 1 ≤ 7 ∧ svc.openPlace (field [7] 0 1) = none) ∧
        (takes (flushing 127) .flush 0 [7] ∧ (flushing 127).openPlace (field [7] 0 1) = some 9 ∧
          ((flushing 127).container 9).group = some (field [7] 0 1) ∧ (flushing 127).link.notices.length < 128) ∧
        (takes (flushing 128) .flush 0 [7] ∧ 128 ≤ (flushing 128).link.notices.length)) ∧
      (∃ s : State, s.ctl.dev = .service ∧ s.ctl.pinHeld = false ∧ s.link.notices.length < 128 ∧
        s.place.held = some .apply ∧ s.index.lookups = [ql .read (some ⟨none, 7⟩) 6]) ∧
      (∃ s : State, s.ctl.dev = .service ∧ s.ctl.pinHeld = false ∧ s.link.notices.length < 128 ∧
        s.place.held = some .release ∧ s.index.other = some (.release 6)) ∧
      (∃ s : State, s.ctl.dev = .service ∧ s.ctl.pinHeld = false ∧ s.link.notices.length < 128 ∧
        s.place.held = some .sweep ∧ s.index.other = some (.sweep 6)) ∧
      (∀ k ∈ [ReqKind.durable, .lost, .flush], ∃ (s : State) (r : Request), s.ctl.dev = .service ∧
        s.ctl.pinHeld = false ∧ s.link.notices.length < 128 ∧ s.place.held = some .request ∧ s.dataHeld = none ∧
        s.link.requests = [r] ∧ r.kind = k) ∧
      (∃ s : State, s.ctl.dev = .service ∧ s.ctl.pinHeld = false ∧ s.link.notices.length < 128 ∧
        s.place.held = some (.seal 1)) ∧
      (∃ s : State, s.ctl.dev = .service ∧ s.ctl.pinHeld = false ∧ s.link.notices.length < 128 ∧
        s.place.held = some .starved ∧ s.index.lookups = [ql .blocked none 6] ∧ (s.slot 1).group = some 2) ∧
      ∃ s t : State, s.HeldRequestAtHead ∧ s.place.held = some .request ∧
        s.pending = [.credit 9] ∧ step s = .next t :=
  ⟨by decide +kernel, by decide +kernel, ⟨holds (cramped 127 none) .apply, by decide +kernel⟩,
    ⟨holds (releasing 1 (box .durable 1)) .release, by decide +kernel⟩, ⟨holds sweeping .sweep, by decide +kernel⟩,
    fun k _ => ⟨holds (asking (dependent 127 (box .full 0)) k 0 [0, 9]) .request, req k 0 [0, 9], rfl, rfl,
      by simp [holds, plc, asking, dependent, crowd, State.setContainer], rfl, rfl, rfl, rfl⟩,
    ⟨holds (sealable [9]) (.seal 1), by decide +kernel⟩,
    ⟨holds (looking (crowd 127 (at_ 1 act)) [ql .blocked none 6]) .starved, by decide +kernel⟩,
    (holds (asking (flushing 127) .flush 0 [7]) .request).withPending [.credit 9], _,
    fun _ => ⟨rfl, rfl, req .flush 0 [7], [], rfl, .inr (.inr rfl)⟩, rfl, rfl, rfl⟩

/-! ## Witnesses: releases and the branch monitor -/

/-- A CLEAN report of that many bytes. -/
def cleanRep (bytes fresh : Nat) : Report :=
  { rep .clean with counters := { Counters.zero with bytes := bytes, newBytes := fresh } }
/-- That report held, on branch 5 as given. -/
def clean (bytes fresh : Nat) (b : Branch) : State :=
  crowd 126 ((at_ 1 { act with heldReport := some (cleanRep bytes fresh) }).setBranch 5 b)
/-- A HOT branch. -/
def hot : Branch := { Branch.fresh with phase := .hot, margin := some 256 }
/-- A COLD branch with that cold count. -/
def cold (c : Nat) : Branch := { Branch.fresh with cold := c }

theorem witness_CleanReportsAreSampled :
    (((clean 16777215 0 (cold 0)).ctl.dev = .service ∧ (clean 16777215 0 (cold 0)).ctl.pinHeld = false ∧
          ((clean 16777215 0 (cold 0)).slot 1).state ≠ .free ∧
          ((clean 16777215 0 (cold 0)).slot 1).heldReport = some (cleanRep 16777215 0) ∧
          (clean 16777215 0 (cold 0)).link.notices.length < 127 ∧ (cleanRep 16777215 0).outcome = .clean ∧
          (clean 16777215 0 (cold 0)).monitor.surgeHeld = none ∧ (clean 16777215 0 (cold 0)).marks.handOns = [] ∧
          (cleanRep 16777215 0).counters.bytes <
            (clean 16777215 0 (cold 0)).ctl.settings.minSampleMib * 1048576) ∧
        (((clean 16777216 0 (cold 2)).slot 1).heldReport = some (cleanRep 16777216 0) ∧
          (clean 16777216 0 (cold 2)).ctl.settings.minSampleMib * 1048576 ≤ (cleanRep 16777216 0).counters.bytes ∧
          ((clean 16777216 0 (cold 2)).branch 5).phase = .cold ∧ ((clean 16777216 0 (cold 2)).branch 5).cold < 3) ∧
        (((clean 16777216 0 (cold 3)).branch 5).phase = .cold ∧ ((clean 16777216 0 (cold 3)).branch 5).cold = 3) ∧
        (((clean 16777216 4194304 hot).slot 1).heldReport = some (cleanRep 16777216 4194304) ∧
          ((clean 16777216 4194304 hot).branch 5).phase = .hot ∧
          ((clean 16777216 4194304 hot).branch 5).margin = some 256 ∧
          4194304 * 1024 / 16777216 = ((clean 16777216 4194304 hot).branch 5).baseline + 256) ∧
        (((clean 16777216 4210688 hot).slot 1).heldReport = some (cleanRep 16777216 4210688) ∧
          ((clean 16777216 4210688 hot).branch 5).baseline + 256 < 4210688 * 1024 / 16777216)) ∧
      (∃ s : State, s.ctl.dev = .service ∧ s.ctl.pinHeld = false ∧ s.monitor.surgeHeld = some ⟨5, 600, 335, 256⟩ ∧
        s.marks.handOns = [] ∧ s.link.notices.length < 128) ∧
      ∃ (s : State) (hs : List HandOn), s.ctl.dev = .service ∧ s.ctl.pinHeld = false ∧
        s.monitor.surgeHeld = some ⟨5, 600, 335, 256⟩ ∧ s.link.notices.length < 128 ∧ hs.Perm s.marks.handOns ∧
        (hs.map HandOn.stream).Nodup ∧ hs.map HandOn.stream = [2, 1] :=
  ⟨by decide +kernel, ⟨crowd 127 { svc with monitor := ⟨[], some ⟨5, 600, 335, 256⟩⟩ }, by decide +kernel⟩,
    crowd 127 { svc with
      monitor := ⟨[], some ⟨5, 600, 335, 256⟩⟩
      marks := { svc.marks with handOns := [⟨1, 6, 16777216, 0⟩, ⟨2, 7, 1, 1⟩] } },
    [⟨2, 7, 1, 1⟩, ⟨1, 6, 16777216, 0⟩], by decide +kernel⟩

/-- A RELEASE for branch 5 of one item. -/
def rel1 : List Byte := [5, 1] ++ beBytes 16 7 ++ beBytes 4 65536
/-- A release queue of `n` items. -/
def relQueue (n : Nat) : State :=
  idx svc (fun x => { x with
    releases := List.replicate n ⟨0, 1, 5, 7, true⟩, tally := if n = 0 then none else some ⟨7, 5, 0, 0, 0⟩ })

theorem witness_ReleaseQueuesAllOrNothing :
    (takes flt .release 0 [5, 0] ∧ flt.ctl.dev ≠ .service) ∧
      (takes svc .release 0 [5, 0] ∧ field [5, 0] 1 1 = 0) ∧ (takes svc .release 0 [5, 65] ∧ 64 < field [5, 65] 1 1) ∧
      (takes (svc.setBranch 5 { Branch.fresh with hold := true }) .release 0 rel1 ∧ field rel1 1 1 = 1 ∧
        ((svc.setBranch 5 { Branch.fresh with hold := true }).branch (field rel1 0 1)).hold = true) ∧
      (takes (relQueue 256) .release 0 rel1 ∧ ((relQueue 256).branch (field rel1 0 1)).hold = false ∧
        256 < (relQueue 256).index.releases.length + field rel1 1 1) ∧
      (takes (relQueue 255) .release 0 rel1 ∧ (relQueue 255).index.releases.length + field rel1 1 1 ≤ 256 ∧
        (relQueue 255).index.releases = ⟨0, 1, 5, 7, true⟩ :: List.replicate 254 ⟨0, 1, 5, 7, true⟩ ∧
        (relQueue 255).index.tally = some ⟨7, 5, 0, 0, 0⟩) ∧
      (takes (relQueue 0) .release 0 rel1 ∧ (relQueue 0).index.releases = [] ∧
        releaseItems 5 7 1 (rel1.drop 2) = [⟨7, 65536, 5, 7, true⟩] ∧ (relQueue 0).index.tally = none ∧
        (relQueue 0).index.completeHeld = false) := by
  decide +kernel

theorem witness_HoldsAndBaselinesAreReset :
    (takes rst .clearHold 0 [255] ∧ takes flt .resetBaseline 0 [0, 0] ∧ rst.ctl.dev ≠ .service ∧
        flt.ctl.dev ≠ .service) ∧
      takes svc .clearHold 0 [255] ∧ svc.ctl.dev = .service ∧
      (takes svc .resetBaseline 0 [0, 0] ∧ (([0, 0] : List Byte).drop 2).map (fun b => b.toNat) = []) ∧
      (takes svc .resetBaseline 0 [0, 2, 9, 9] ∧
        ¬ ((([0, 2, 9, 9] : List Byte).drop 2).map (fun b => b.toNat)).Nodup) ∧
      (takes svc .resetBaseline 0 [0, 2, 0, 255] ∧
        (([0, 2, 0, 255] : List Byte).drop 2).map (fun b => b.toNat) ≠ [] ∧
        ((([0, 2, 0, 255] : List Byte).drop 2).map (fun b => b.toNat)).Nodup) := by
  decide +kernel

end Sys2Proof.Tests
end

/-! PROOFS. The branch streams' requests (chapter 1): OPEN and its parameter blocks, the addressing checks, DATA,
SET WEIGHT, SET PACING, RETIME, CLOSE, ABORT, and the end of a stream. Each request row is reduced once to its taking
(`exec_requestRow`); each taking has its equations; the obligations are assembled from these. -/

namespace Sys2Proof.BranchStreams

open Sys2Proof Sys2Proof.Machine

variable {s : State} {r : Request} {rest : List Request}

/-! ## Request rows -/

/-- R156: the request kind that a request row takes, and what its owner does with the request. -/
def rowTaking : Instr → Option (ReqKind × (Request → State → State))
  | .status => some (.status, fun r s => s.answer r .done (.status s.statusFigures))
  | .reset => some (.reset, takeReset)
  | .setSetting => some (.setSetting, takeSetSetting)
  | .saveSettings => some (.saveSettings, takeSaveSettings)
  | .declare k => some (.declare, fun r s => takeDeclare r (s.noteCorrected k))
  | .seed k bad => some (.seed, fun r s => takeSeed r bad (s.noteCorrected k))
  | .beginService k bad => some (.beginService, fun r s => takeBeginService r bad (s.noteCorrected k))
  | .openStream => some (.openStream, takeOpen)
  | .data => some (.data, takeData)
  | .mark => some (.mark, takeMark)
  | .seal k => some (.seal, fun r s => takeSeal r (s.noteCorrected k))
  | .readReport => some (.readReport, takeReadReport)
  | .ackReport => some (.ackReport, takeAckReport)
  | .retime => some (.retime, takeRetime)
  | .setWeight => some (.setWeight, takeSetWeight)
  | .setPacing => some (.setPacing, takeSetPacing)
  | .snapshot => some (.snapshot, takeSnapshot)
  | .close => some (.close, takeClose)
  | .abort k => some (.abort, fun r s => takeAbort r (s.noteCorrected k))
  | .durable k => some (.durable, fun r s => takeDurable r (s.noteCorrected k))
  | .lost k => some (.lost, fun r s => takeLost r (s.noteCorrected k))
  | .free k => some (.free, fun r s => takeFree r (s.noteCorrected k))
  | .flush k => some (.flush, fun r s => takeFlush r (s.noteCorrected k))
  | .queryContainer k => some (.queryContainer, fun r s => takeQueryContainer r (s.noteCorrected k))
  | .release => some (.release, takeRelease)
  | .clearHold => some (.clearHold, takeClearHold)
  | .resetBaseline => some (.resetBaseline, takeResetBaseline)
  | .queryBranch => some (.queryBranch, takeQueryBranch)
  | _ => none

/-- A request row is the taking of the request at the head, where its owner takes it now; otherwise it is no event
(log entries 10 and 11). -/
theorem exec_requestRow {c : Instr} {kind : ReqKind} {take : Request → State → State}
    (hc : rowTaking c = some (kind, take)) (s : State) :
    exec c s = match s.headRequest kind with
      | some r => .next (take r s)
      | none => .next s := by
  cases c <;> cases hc <;> rfl

theorem kind_of_takesNow {kind : ReqKind} (h : s.TakesNow kind r rest) : r.kind = kind := h.2.1

theorem pinHeld_of_takesNow {kind : ReqKind} (h : s.TakesNow kind r rest) : s.ctl.pinHeld = false := h.2.2.1

theorem exec_of_takesNow {c : Instr} {kind : ReqKind} {take : Request → State → State}
    (hc : rowTaking c = some (kind, take)) (h : s.TakesNow kind r rest) : exec c s = .next (take r s) := by
  simp only [exec_requestRow hc, h.headRequest]

/-- R12: a held DATA REFUSED keeps every request waiting, whatever row would take it. -/
theorem exec_requestRow_of_dataHeld {c : Instr} {kind : ReqKind} {take : Request → State → State} {note : Notice}
    (hc : rowTaking c = some (kind, take)) (h : s.dataHeld = some note) : exec c s = .next s := by
  simp only [exec_requestRow hc, headRequest_of_dataHeld s note h]

/-! ## Misaddressed requests -/

/-- The takings that begin with the addressing checks of R2 and answer with their reason. -/
def addressedTakings : List (Request → State → State) :=
  [takeMark, takeSeal, takeReadReport, takeAckReport, takeRetime, takeSetWeight, takeSetPacing, takeSnapshot, takeClose,
    takeAbort]

theorem take_of_streamCheck {take : Request → State → State} (ht : take ∈ addressedTakings) {reason : Reason}
    (h : s.streamCheck r = some reason) : take r s = s.refuse r reason := by
  simp only [addressedTakings, List.mem_cons, List.not_mem_nil, or_false] at ht
  rcases ht with rfl | rfl | rfl | rfl | rfl | rfl | rfl | rfl | rfl | rfl
  · simp only [takeMark, h]
  · simp only [takeSeal, h]
  · simp only [takeReadReport, h]
  · simp only [takeAckReport, h]
  · simp only [takeRetime, h]
  · simp only [takeSetWeight, h]
  · simp only [takeSetPacing, h]
  · simp only [takeSnapshot, h]
  · simp only [takeClose, h]
  · simp only [takeAbort, h]

/-- Every plain stream row takes a request that meets the addressing checks first. -/
theorem rowTaking_of_plainStreamRow {c : Instr} {kind : ReqKind} (h : (c, kind) ∈ plainStreamRows) :
    kind ∈ takenKinds .active ∧ ∃ take ∈ addressedTakings, rowTaking c = some (kind, take) := by
  simp only [plainStreamRows, List.mem_cons, Prod.mk.injEq, List.not_mem_nil, or_false] at h
  rcases h with ⟨rfl, rfl⟩ | ⟨rfl, rfl⟩ | ⟨rfl, rfl⟩ | ⟨rfl, rfl⟩ | ⟨rfl, rfl⟩ | ⟨rfl, rfl⟩ | ⟨rfl, rfl⟩ | ⟨rfl, rfl⟩ <;>
    exact ⟨by decide, _, by simp [addressedTakings], rfl⟩

/-- The corrected errors of a command's reads have no part in the addressing checks. -/
theorem streamCheck_noteCorrected (k : Nat) : (s.noteCorrected k).streamCheck r = s.streamCheck r := rfl

/-- A row that first notes the corrected errors of its reads refuses a misaddressed request all the same. -/
theorem exec_noting_of_misaddressed {c : Instr} {kind : ReqKind} {take : Request → State → State} {k : Nat}
    {reason : Reason} (ht : take ∈ addressedTakings)
    (hc : rowTaking c = some (kind, fun r s => take r (s.noteCorrected k))) (hk : kind ∈ takenKinds .active)
    (hm : s.Misaddressed r reason) (h : s.TakesNow kind r rest) :
    exec c s = .next { s.noteCorrected k with link := s.replied r rest (.refused reason) .none } := by
  have hs : (s.noteCorrected k).streamCheck r = some reason :=
    (streamCheck_noteCorrected k).trans (streamCheck_eq_some hm ((kind_of_takesNow h).symm ▸ hk))
  have hq : (s.noteCorrected k).link.requests = r :: rest := h.1
  rw [exec_of_takesNow hc h, take_of_streamCheck ht hs, refuse_eq hq]
  rfl

/-- Settles O30, by the one shape that all stream requests' takings have. -/
theorem misaddressedRequestsAreRefused : Obligations.MisaddressedRequestsAreRefused := by
  intro s r rest reason hm
  refine ⟨fun c kind hrow h => ?_, fun k => ⟨fun h => ?_, fun h => ?_⟩⟩
  · obtain ⟨hk, take, ht, hc⟩ := rowTaking_of_plainStreamRow hrow
    have hs : s.streamCheck r = some reason := streamCheck_eq_some hm ((kind_of_takesNow h).symm ▸ hk)
    rw [exec_of_takesNow hc h, take_of_streamCheck ht hs, refuse_eq h.1]
  · exact exec_noting_of_misaddressed (take := takeSeal) (by simp [addressedTakings]) rfl (by decide) hm h
  · exact exec_noting_of_misaddressed (take := takeAbort) (by simp [addressedTakings]) rfl (by decide) hm h

/-! ## SET WEIGHT, SET PACING, RETIME -/

theorem takeSetWeight_eq (hq : s.link.requests = r :: rest) (ha : s.streamCheck r = none) :
    takeSetWeight r s = { s with
      slots := (s.setSlot r.stream { s.slot r.stream with pendingWeight := some (field r.payload 0 1) }).slots
      link := s.replied r rest .done .none } := by
  simp only [takeSetWeight, ha]
  exact answer_eq (s := s.setSlot _ _) hq _ _

/-- A value brought into a range is the value sent exactly when that one lay in the range. -/
theorem clampTo_eq_self_iff {lo hi v : Nat} (h : lo ≤ hi) : clampTo lo hi v = v ↔ lo ≤ v ∧ v ≤ hi :=
  ⟨fun e => e ▸ clampTo_range lo hi v h, fun ⟨h₁, h₂⟩ => clampTo_of_mem lo hi v h₁ h₂⟩

/-- The reply to a request whose one value is brought into range: DONE, or CLAMPED with the flag that says so. -/
theorem answer_clamped (hq : s.link.requests = r :: rest) (fields : Bool → Fields) {lo hi v : Nat} (h : lo ≤ hi) :
    s.answer r (if clampTo lo hi v = v then .done else .clamped) (fields (clampTo lo hi v != v)) = { s with
      link :=
        if lo ≤ v ∧ v ≤ hi then s.replied r rest .done (fields false)
        else s.replied r rest .clamped (fields true) } := by
  rw [answer_eq hq]
  by_cases hv : lo ≤ v ∧ v ≤ hi
  · have e : clampTo lo hi v = v := (clampTo_eq_self_iff h).2 hv
    simp only [e, hv, if_true, and_self, bne_self_eq_false]
  · have e : clampTo lo hi v ≠ v := mt (clampTo_eq_self_iff h).1 hv
    simp only [e, hv, if_false, bne_iff_ne.2 e]

theorem takeSetPacing_eq (hq : s.link.requests = r :: rest) (ha : s.streamCheck r = none) :
    takeSetPacing r s = { s with
      slots := (s.setSlot r.stream
        { s.slot r.stream with pendingPacing := some (max 1 (min 10000 (field r.payload 0 2))) }).slots
      link :=
        if 1 ≤ field r.payload 0 2 ∧ field r.payload 0 2 ≤ 10000 then s.replied r rest .done (.setPacing false)
        else s.replied r rest .clamped (.setPacing true) } := by
  simp only [takeSetPacing, ha]
  rw [answer_clamped (s := s.setSlot _ _) hq .setPacing (by omega), clampTo_eq 1 10000 _ (by omega)]
  rfl

theorem takeRetime_locked (hq : s.link.requests = r :: rest) (ha : s.streamCheck r = none)
    (hm : (s.slot r.stream).mark.phase ≠ .none) :
    takeRetime r s = { s with link := s.replied r rest (.refused .locked) .none } := by
  simp only [takeRetime, ha, if_pos hm]
  exact refuse_eq hq _

theorem takeRetime_eq (hq : s.link.requests = r :: rest) (ha : s.streamCheck r = none)
    (hm : (s.slot r.stream).mark.phase = .none) :
    takeRetime r s = { s with
      slots := (s.setSlot r.stream
        { s.slot r.stream with interval := some (max 10 (min 3600 (field r.payload 0 2))) }).slots
      link :=
        if 10 ≤ field r.payload 0 2 ∧ field r.payload 0 2 ≤ 3600 then s.replied r rest .done (.retime false)
        else s.replied r rest .clamped (.retime true) } := by
  simp only [takeRetime, ha, if_neg (not_not.2 hm)]
  rw [answer_clamped (s := s.setSlot _ _) hq .retime (by omega), clampTo_eq 10 3600 _ (by omega)]
  rfl

/-- Settles O32, each request by the equation of its taking. -/
theorem weightPacingAndIntervalAreSet : Obligations.WeightPacingAndIntervalAreSet := by
  intro s r rest haddr
  have ha : s.streamCheck r = none := streamCheck_eq_none haddr
  refine ⟨fun h => ?_, fun h => ?_, fun h hm => ?_, fun h hm => ?_⟩
  · rw [exec_of_takesNow rfl h, takeSetWeight_eq h.1 ha]
  · rw [exec_of_takesNow rfl h, takeSetPacing_eq h.1 ha]
  · rw [exec_of_takesNow rfl h, takeRetime_locked h.1 ha hm]
  · rw [exec_of_takesNow rfl h, takeRetime_eq h.1 ha hm]

/-! ## DATA -/

theorem hasRoom_eq : s.hasRoom = decide (s.link.notices.length < 128) := rfl

/-- R12, R155: the state once a DATA record has been dropped: its notice has entered, or is held for room. -/
def dataDropped (s : State) (rest : List Request) (note : Notice) : State :=
  if s.link.notices.length < 128 then
    { s with link := { s.link with
      requests := rest
      notices := s.link.notices ++ [note]
      outstanding := s.link.outstanding - 1 } }
  else { s with dataHeld := some note, link := { s.link with requests := rest } }

theorem exec_data_dropped {reason : Reason} {next : Nat} (h : s.TakesNow .data r rest)
    (hr : s.dataReason r = some reason) (hn : s.reportedOffset r.stream = next) :
    exec .data s = .next (dataDropped s rest
      (.dataRefused r.stream reason (dataOffset r.payload) (dataBytes r.payload).length next)) := by
  subst hn
  rw [exec_of_takesNow rfl h]
  simp only [takeData, hr, dataDropped, hasRoom_eq, decide_eq_true_eq, State.enter, State.popRequest,
    State.lessOutstanding, h.1, List.drop_one, List.tail_cons]

theorem exec_data_taken (h : s.TakesNow .data r rest) (hr : s.dataReason r = none) :
    exec .data s = .next { s with
      slots := (s.setSlot r.stream
        ((s.slot r.stream).acceptData (dataOffset r.payload) (dataBytes r.payload))).slots
      link := { s.link with requests := rest, outstanding := s.link.outstanding - 1 } } := by
  rw [exec_of_takesNow rfl h]
  simp only [takeData, hr, State.popRequest, State.lessOutstanding, State.setSlot_link, h.1, List.drop_one,
    List.tail_cons]
  rfl

theorem reportedOffset_eq (n : Nat) :
    s.reportedOffset n = if 1 ≤ n ∧ n ≤ 64 then (s.slot n).nextOffset else 0 := by
  simp only [State.reportedOffset, slotInRange, decide_eq_true_eq]

theorem reportedOffset_of_mem {n : Nat} (h₁ : 1 ≤ n) (h₂ : n ≤ 64) : s.reportedOffset n = (s.slot n).nextOffset :=
  (reportedOffset_eq n).trans (if_pos ⟨h₁, h₂⟩)

theorem reportedOffset_of_notMem {n : Nat} (h : n = 0 ∨ 64 < n) : s.reportedOffset n = 0 :=
  (reportedOffset_eq n).trans (if_neg (by omega))

/-- R11: a DATA record that fails an addressing check: RANGE for its stream field, BAD-STATE for the others. -/
theorem dataReason_of_misaddressed {reason : Reason} (hk : r.kind = .data) (h : s.Misaddressed r reason) :
    s.dataReason r = some (if reason = .range then .range else .badState) := by
  have hs : s.streamCheck r = some reason := streamCheck_eq_some h (hk ▸ by decide)
  cases h <;> simp only [State.dataReason, hs] <;> rfl

/-- R4: DATA is taken in an ACTIVE slot alone. -/
theorem data_notMem_takenKinds {st : SlotState} (h : st ≠ .active) : ReqKind.data ∉ takenKinds st := by
  cases st
  case active => exact absurd rfl h
  all_goals decide

/-- R11: the reason that the record itself gives, once the slot is ACTIVE. -/
theorem dataReason_of_active (hk : r.kind = .data) (hd : s.ctl.dev = .service) (h₁ : 1 ≤ r.stream)
    (h₂ : r.stream ≤ 64) (hs : (s.slot r.stream).state = .active) :
    s.dataReason r =
      if r.payload.drop 6 = [] then some .range
      else if dataOffset r.payload ≠ (s.slot r.stream).nextOffset then some .offset
      else if 2 ^ 48 - 1 < dataOffset r.payload + (r.payload.drop 6).length then some .range
      else if 8 ≤ (s.slot r.stream).queue.length then some .queueFull
      else none := by
  have ha : s.streamCheck r = none := streamCheck_eq_none ⟨hd, h₁, h₂, by rw [hs, hk]; decide⟩
  simp only [State.dataReason, ha]
  rfl

/-- R12, R162: a held DATA REFUSED enters as room frees. -/
theorem exec_heldDataRefusedEntry {note : Notice} (hn : s.dataHeld = some note) (hp : s.ctl.pinHeld = false)
    (hr : s.link.notices.length < 128) :
    exec .heldDataRefusedEntry s = .next { s with
      dataHeld := none
      link := { s.link with notices := s.link.notices ++ [note], outstanding := s.link.outstanding - 1 } } := by
  show execHeldDataRefusedEntry s = _
  simp only [execHeldDataRefusedEntry, hn, hp, hasRoom_eq, hr, decide_true, Bool.not_false, Bool.and_self, if_true]
  rfl

/-- Settles O31: the dropped and the taken record by the reason that `dataReason` gives in each case, and the waiting
requests by R12's condition on every hand-on. -/
theorem dataIsTakenOrDropped : Obligations.DataIsTakenOrDropped := by
  refine ⟨fun s r rest h => ?_, fun s note hn hp hr => exec_heldDataRefusedEntry hn hp hr,
    fun s note c k bad hn hc => ?_⟩
  · have hk : r.kind = .data := kind_of_takesNow h
    refine ⟨fun hn hd => ?_, fun hd => ?_, fun hd h₁ h₂ hs => ?_, fun hd h₁ h₂ hs => ?_⟩
    · exact exec_data_dropped h (dataReason_of_misaddressed hk (.range hd hn)) (reportedOffset_of_notMem hn)
    · exact exec_data_dropped h (dataReason_of_misaddressed hk (.device hd)) (reportedOffset_eq _)
    · have hm : ∃ reason, s.Misaddressed r reason ∧ reason ≠ .range := by
        by_cases hf : (s.slot r.stream).state = .free
        · exact ⟨_, .noStream hd h₁ h₂ hf, by decide⟩
        · exact ⟨_, .slotState hd h₁ h₂ hf (hk ▸ data_notMem_takenKinds hs), by decide⟩
      obtain ⟨reason, hm, hne⟩ := hm
      exact exec_data_dropped h ((dataReason_of_misaddressed hk hm).trans (by rw [if_neg hne]))
        (reportedOffset_of_mem h₁ h₂)
    · have hr := dataReason_of_active hk hd h₁ h₂ hs
      have drops := fun reason hr => exec_data_dropped (reason := reason) h hr (reportedOffset_of_mem h₁ h₂)
      refine ⟨fun hb => drops _ (by rw [hr, if_pos hb]), fun hb _ => ⟨fun ho => ?_, fun ho hl => ?_,
        fun ho hl hf => ?_, fun ho hl hf => ?_⟩⟩
      · exact drops _ (by rw [hr, if_neg hb]; exact if_pos ho)
      · exact drops _ (by rw [hr, if_neg hb]; exact (if_neg (not_not.2 ho)).trans (if_pos hl))
      · exact drops _ (by
          rw [hr, if_neg hb]
          exact (if_neg (not_not.2 ho)).trans ((if_neg (Nat.not_lt.2 hl)).trans (if_pos hf)))
      · refine exec_data_taken h ?_
        rw [hr, if_neg hb]
        exact (if_neg (not_not.2 ho)).trans ((if_neg (Nat.not_lt.2 hl)).trans (if_neg (Nat.not_le.2 hf)))
  · have hrow : (rowTaking c).isSome := by
      revert c
      simp only [List.forall_mem_cons, rowTaking, Option.isSome_some, true_and, List.not_mem_nil, false_imp_iff,
        implies_true]
    obtain ⟨⟨kind, take⟩, hrow⟩ := Option.isSome_iff_exists.1 hrow
    exact exec_requestRow_of_dataHeld hrow hn

/-! ## The parameter blocks of OPEN -/

/-- R7: the bytes of blocks one after another. -/
def blocksBytes (bs : List ParamBlock) : List Byte :=
  bs.flatMap (fun b => BitVec.ofNat 8 b.type :: BitVec.ofNat 8 b.fields.length :: b.fields)

/-- R7: the fields of a block have the length of its type. -/
def SuitsType (b : ParamBlock) : Prop := (b.type, b.fields.length) ∈ [(1, 18), (2, 3), (3, 4)]

theorem blockLength_eq_some {type n : Nat} : blockLength type = some n ↔ (type, n) ∈ [(1, 18), (2, 3), (3, 4)] := by
  unfold blockLength
  split <;> simp_all [eq_comm]

theorem suitsType_iff (b : ParamBlock) : SuitsType b ↔ blockLength b.type = some b.fields.length :=
  blockLength_eq_some.symm

/-- A type byte and a length byte of a block that suits its type read back as they were written. -/
theorem SuitsType.bytes_toNat {b : ParamBlock} (h : SuitsType b) :
    (BitVec.ofNat 8 b.type).toNat = b.type ∧ (BitVec.ofNat 8 b.fields.length).toNat = b.fields.length := by
  simp only [SuitsType, List.mem_cons, Prod.mk.injEq, List.not_mem_nil, or_false] at h
  simp only [BitVec.toNat_ofNat]
  omega

theorem splitBlocks_nil (fuel : Nat) : splitBlocks fuel [] = some [] := by simp [splitBlocks]

theorem splitBlocks_block (fuel : Nat) (type len : Byte) (later : List Byte) :
    splitBlocks (fuel + 1) (type :: len :: later) =
      if blockLength type.toNat = some len.toNat ∧ len.toNat ≤ later.length then
        (splitBlocks fuel (later.drop len.toNat)).map (fun bs => ⟨type.toNat, later.take len.toNat⟩ :: bs)
      else none := by
  simp only [splitBlocks]

/-- Blocks that suit their types are read back from their bytes. -/
theorem splitBlocks_blocksBytes {bs : List ParamBlock} {fuel : Nat} (hs : ∀ b ∈ bs, SuitsType b)
    (hf : bs.length ≤ fuel) : splitBlocks fuel (blocksBytes bs) = some bs := by
  induction bs generalizing fuel with
  | nil => exact splitBlocks_nil fuel
  | cons b bs ih =>
    obtain ⟨fuel, rfl⟩ : ∃ k, fuel = k + 1 := ⟨fuel - 1, by simp only [List.length_cons] at hf; omega⟩
    obtain ⟨hb, hbs⟩ := List.forall_mem_cons.1 hs
    obtain ⟨ht, hl⟩ := hb.bytes_toNat
    have hrest := ih hbs (Nat.le_of_succ_le_succ hf)
    rw [blocksBytes, List.flatMap_cons, List.cons_append, List.cons_append, splitBlocks_block, ht, hl,
      if_pos ⟨(suitsType_iff b).1 hb, by simp⟩, List.drop_left, List.take_left]
    exact congrArg (Option.map _) hrest

/-- What is read as blocks is the blocks' bytes, each suiting its type. -/
theorem eq_blocksBytes_of_splitBlocks {fuel : Nat} {bytes : List Byte} {bs : List ParamBlock}
    (h : splitBlocks fuel bytes = some bs) : bytes = blocksBytes bs ∧ ∀ b ∈ bs, SuitsType b := by
  induction fuel, bytes using splitBlocks.induct generalizing bs with
  | case1 fuel =>
    rw [splitBlocks_nil] at h
    cases h
    exact ⟨rfl, by simp⟩
  | case2 fuel type len later hlen ih =>
    rw [splitBlocks_block, if_pos hlen] at h
    obtain ⟨bs', hbs', rfl⟩ := Option.map_eq_some_iff.1 h
    obtain ⟨hbytes, hsuits⟩ := ih hbs'
    have htake : (later.take len.toNat).length = len.toNat := List.length_take_of_le hlen.2
    refine ⟨?_, List.forall_mem_cons.2 ⟨(suitsType_iff _).2 (by rw [htake]; exact hlen.1), hsuits⟩⟩
    rw [blocksBytes, List.flatMap_cons, htake, ← blocksBytes, ← hbytes]
    simp
  | case3 fuel type len later hlen => rw [splitBlocks_block, if_neg hlen] at h; cases h
  | case4 fuel bytes h₁ h₂ => simp [splitBlocks] at h

/-- Of three types, none twice, there are at most three blocks. -/
theorem length_le_three {bs : List ParamBlock} (hs : ∀ b ∈ bs, SuitsType b)
    (hn : (bs.map ParamBlock.type).Nodup) : bs.length ≤ 3 := by
  have hsub : bs.map ParamBlock.type ⊆ [1, 2, 3] := by
    intro type ht
    obtain ⟨b, hb, rfl⟩ := List.mem_map.1 ht
    have := hs b hb
    simp only [SuitsType, List.mem_cons, Prod.mk.injEq, List.not_mem_nil, or_false] at this ⊢
    omega
  simpa using (hn.subperm hsub).length_le

theorem parseBlocks_eq_some {bytes : List Byte} {bs : List ParamBlock} :
    parseBlocks bytes = some bs ↔
      bytes = blocksBytes bs ∧ (∀ b ∈ bs, SuitsType b) ∧ (bs.map ParamBlock.type).Nodup := by
  have hsplit : parseBlocks bytes = some bs ↔ splitBlocks 3 bytes = some bs ∧ (bs.map ParamBlock.type).Nodup := by
    unfold parseBlocks
    cases splitBlocks 3 bytes with
    | none => simp
    | some bs' => simp; grind
  rw [hsplit]
  constructor
  · rintro ⟨h, hn⟩
    obtain ⟨hb, hs⟩ := eq_blocksBytes_of_splitBlocks h
    exact ⟨hb, hs, hn⟩
  · rintro ⟨rfl, hs, hn⟩
    exact ⟨splitBlocks_blocksBytes hs (length_le_three hs hn), hn⟩

/-! ## What OPEN gathers -/

theorem blockOf_of_mem {bs : List ParamBlock} {type : Nat} {f : List Byte} (hn : (bs.map ParamBlock.type).Nodup)
    (h : ⟨type, f⟩ ∈ bs) : blockOf type bs = some f := by
  induction bs with
  | nil => cases h
  | cons b bs ih =>
    obtain ⟨hb, hbs⟩ := List.nodup_cons.1 hn
    rcases List.mem_cons.1 h with rfl | h
    · simp [blockOf]
    · have hne : b.type ≠ type := fun e => hb (e ▸ List.mem_map.2 ⟨_, h, rfl⟩)
      rw [blockOf, List.find?_cons_of_neg (by simpa using hne)]
      exact ih hbs h

theorem blockOf_of_absent {bs : List ParamBlock} {type : Nat} (h : ∀ b ∈ bs, b.type ≠ type) :
    blockOf type bs = none := by
  simpa [blockOf] using h

theorem mem_or_absent (type : Nat) (bs : List ParamBlock) :
    (∃ f, ⟨type, f⟩ ∈ bs) ∨ ∀ b ∈ bs, b.type ≠ type := by
  by_cases h : ∃ b ∈ bs, b.type = type
  · obtain ⟨⟨_, f⟩, hb, rfl⟩ := h
    exact .inl ⟨f, hb⟩
  · exact .inr fun b hb e => h ⟨b, hb, e⟩

theorem clampNamed_eq (name : ClampField) {lo hi : Nat} (v : Nat) (h : lo ≤ hi) :
    clampNamed name lo hi v = (max lo (min hi v), if lo ≤ v ∧ v ≤ hi then [] else [name]) := by
  simp only [clampNamed, clampTo_eq_self_iff h]
  rw [clampTo_eq lo hi v h]

/-- R22, R23: the profile of an OPEN and the fields named. -/
def openProfile (w : Settings) (bs : List ParamBlock) : Option (Profile × List ClampField) :=
  match blockOf 1 bs with
  | some f => profileOfBlock f
  | none => profileOfSettings w

/-- R8: the interval and the length check of an OPEN, each with the name if it was changed. -/
def openCheckpoint (w : Settings) (bs : List ParamBlock) : (Nat × List ClampField) × (Nat × List ClampField) :=
  match blockOf 2 bs with
  | some f => (clampNamed .interval 10 3600 (field f 0 2), clampNamed .lengthCheck 0 1 (field f 2 1))
  | none => ((w.interval, []), (w.lengthCheck, []))

/-- R8: the weight of an OPEN, and its pacing period and batch threshold, each with the name if it was changed. -/
def openShare (w : Settings) (bs : List ParamBlock) : Nat × (Nat × List ClampField) × (Nat × List ClampField) :=
  match blockOf 3 bs with
  | some f => (field f 0 1, clampNamed .pacingPeriod 1 10000 (field f 1 2), clampNamed .threshold 1 64 (field f 3 1))
  | none => (w.weight, (w.pacing, []), (w.threshold, []))

/-- The values gathered are those of the three families, and the names in their order. -/
theorem gatherOpen_eq (w : Settings) (bs : List ParamBlock) :
    gatherOpen w bs = (openProfile w bs).map (fun p =>
      { profile := p.1, interval := (openCheckpoint w bs).1.1, lengthCheck := (openCheckpoint w bs).2.1 == 1
        weight := (openShare w bs).1, pacing := (openShare w bs).2.1.1, threshold := (openShare w bs).2.2.1
        clamped := p.2 ++ (openCheckpoint w bs).1.2 ++ (openCheckpoint w bs).2.2 ++ (openShare w bs).2.1.2 ++
          (openShare w bs).2.2.2 }) := rfl

section families

variable {w : Settings} {bs : List ParamBlock} {f : List Byte}

theorem openProfile_of_block (hn : (bs.map ParamBlock.type).Nodup) (h : ⟨1, f⟩ ∈ bs) :
    openProfile w bs = profileOfBlock f := by
  simp only [openProfile, blockOf_of_mem hn h]

theorem openProfile_of_absent (h : ∀ b ∈ bs, b.type ≠ 1) : openProfile w bs = profileOfSettings w := by
  simp only [openProfile, blockOf_of_absent h]

theorem profileOfSettings_eq_none : profileOfSettings w = none ↔ w.lmax < w.lmin := by
  simp [profileOfSettings]

theorem profileOfSettings_eq_some {p : Profile × List ClampField} (h : profileOfSettings w = some p) :
    p = (⟨w.lmin, max w.lmin (min w.lmax w.ltgt), w.lmax, w.ks, if w.kl < 6 then 6 else min w.ks w.kl, w.seed,
      gearTable w.seed⟩, []) := by
  have hle : ¬ w.lmax < w.lmin := fun hlt => by rw [profileOfSettings_eq_none.2 hlt] at h; cases h
  have hkl : clampTo 6 w.ks w.kl = if w.kl < 6 then 6 else min w.ks w.kl := by
    unfold clampTo
    split <;> [rfl; split <;> omega]
  rw [profileOfSettings, if_neg hle, clampTo_eq _ _ _ (Nat.not_lt.1 hle), hkl] at h
  exact (Option.some.inj h).symm

theorem openProfile_eq_none (hn : (bs.map ParamBlock.type).Nodup) :
    openProfile w bs = none ↔
      (∃ f, ⟨1, f⟩ ∈ bs ∧ profileOfBlock f = none) ∨ ((∀ b ∈ bs, b.type ≠ 1) ∧ w.lmax < w.lmin) := by
  rcases mem_or_absent 1 bs with ⟨f, hf⟩ | h
  · have hblock : ∀ g, ⟨1, g⟩ ∈ bs → g = f := fun g hg =>
      Option.some.inj ((blockOf_of_mem hn hg).symm.trans (blockOf_of_mem hn hf))
    rw [openProfile_of_block hn hf]
    constructor
    · exact fun e => .inl ⟨f, hf, e⟩
    · rintro (⟨g, hg, e⟩ | ⟨h, -⟩)
      · exact hblock g hg ▸ e
      · exact absurd rfl (h _ hf)
  · rw [openProfile_of_absent h, profileOfSettings_eq_none]
    constructor
    · exact fun e => .inr ⟨h, e⟩
    · rintro (⟨g, hg, -⟩ | ⟨-, e⟩)
      · exact absurd rfl (h _ hg)
      · exact e

theorem openCheckpoint_of_block (hn : (bs.map ParamBlock.type).Nodup) (h : ⟨2, f⟩ ∈ bs) :
    openCheckpoint w bs =
      ((max 10 (min 3600 (field f 0 2)), if 10 ≤ field f 0 2 ∧ field f 0 2 ≤ 3600 then [] else [.interval]),
        (min 1 (field f 2 1), if field f 2 1 ≤ 1 then [] else [.lengthCheck])) := by
  simp only [openCheckpoint, blockOf_of_mem hn h]
  rw [clampNamed_eq _ _ (by omega), clampNamed_eq _ _ (by omega)]
  simp

theorem openCheckpoint_of_absent (h : ∀ b ∈ bs, b.type ≠ 2) :
    openCheckpoint w bs = ((w.interval, []), (w.lengthCheck, [])) := by
  simp only [openCheckpoint, blockOf_of_absent h]

theorem openShare_of_block (hn : (bs.map ParamBlock.type).Nodup) (h : ⟨3, f⟩ ∈ bs) :
    openShare w bs =
      (field f 0 1,
        (max 1 (min 10000 (field f 1 2)), if 1 ≤ field f 1 2 ∧ field f 1 2 ≤ 10000 then [] else [.pacingPeriod]),
        (max 1 (min 64 (field f 3 1)), if 1 ≤ field f 3 1 ∧ field f 3 1 ≤ 64 then [] else [.threshold])) := by
  simp only [openShare, blockOf_of_mem hn h]
  rw [clampNamed_eq _ _ (by omega), clampNamed_eq _ _ (by omega)]

theorem openShare_of_absent (h : ∀ b ∈ bs, b.type ≠ 3) :
    openShare w bs = (w.weight, (w.pacing, []), (w.threshold, [])) := by
  simp only [openShare, blockOf_of_absent h]

end families

/-- Settles O28: the reading of the blocks by induction on them, what is gathered family by family. -/
theorem openParametersAreGathered : Obligations.OpenParametersAreGathered := by
  refine ⟨fun bytes bs => parseBlocks_eq_some, fun w bs hn => ⟨?_, fun v hv => ?_⟩⟩
  · rw [gatherOpen_eq, Option.map_eq_none_iff, openProfile_eq_none hn]
  · rw [gatherOpen_eq] at hv
    obtain ⟨⟨p, names⟩, hp, rfl⟩ := Option.map_eq_some_iff.1 hv
    refine ⟨names, (openCheckpoint w bs).1.2 ++ (openCheckpoint w bs).2.2,
      (openShare w bs).2.1.2 ++ (openShare w bs).2.2.2, by simp only [List.append_assoc], fun f hf => ?_, fun h => ?_,
      fun f hf => ?_, fun h => ?_, fun f hf => ?_, fun h => ?_⟩
    · rw [← openProfile_of_block hn hf, hp]
    · have e := profileOfSettings_eq_some ((openProfile_of_absent h).symm.trans hp)
      obtain ⟨rfl, rfl⟩ := Prod.mk.inj e
      exact ⟨rfl, rfl⟩
    · rw [openCheckpoint_of_block hn hf]
      exact ⟨rfl, by simp only [beq_iff_eq]; omega, rfl⟩
    · rw [openCheckpoint_of_absent h]
      exact ⟨rfl, beq_iff_eq, rfl⟩
    · rw [openShare_of_block hn hf]
      exact ⟨rfl, rfl, rfl, rfl⟩
    · rw [openShare_of_absent h]
      exact ⟨rfl, rfl, rfl, rfl⟩

/-! ## OPEN -/

theorem lowestFree_eq {n : Nat} (h₁ : 1 ≤ n) (h₂ : n ≤ 64) (hf : (s.slot n).state = .free)
    (hl : ∀ m, 1 ≤ m → m < n → (s.slot m).state ≠ .free) : s.lowestFree = some n :=
  find_range' (by simpa using hf) h₁ (by simp only [Config.slotCount]; omega) fun m h h' => by simpa using hl m h h'

theorem lowestFree_eq_none (h : ∀ m, 1 ≤ m → m ≤ 64 → (s.slot m).state ≠ .free) : s.lowestFree = none :=
  find_range'_none fun m h₁ h₂ => by
    simpa using h m h₁ (by simp only [Config.slotCount] at h₂; omega)

/-- R10: a branch keeps the margin of its first binding. -/
theorem bind_eq (b : Branch) (slot margin : Nat) :
    b.bind slot margin = { b with bound := some slot, margin := some (b.margin.getD margin) } := by
  simp only [Branch.bind]
  cases b.margin <;> rfl

theorem exec_open_refused {reason : Reason} (h : s.TakesNow .openStream r rest)
    (e : takeOpen r s = s.refuse r reason) :
    exec .openStream s = .next { s with link := s.replied r rest (.refused reason) .none } := by
  rw [exec_of_takesNow rfl h, e, refuse_eq h.1]

/-- R6: OPEN in SERVICE whose blocks are well formed: the checks that remain. -/
theorem takeOpen_of_blocks {blocks : List ParamBlock} (hd : s.ctl.dev = .service)
    (hb : parseBlocks (r.payload.drop 2) = some blocks) :
    takeOpen r s =
      if 8 ≤ field r.payload 1 1 then s.refuse r .range
      else if (s.branch (field r.payload 0 1)).bound.isSome then s.refuse r .branchBusy
      else
        match gatherOpen s.ctl.settings blocks, s.lowestFree with
        | none, _ => s.refuse r .badProfile
        | some _, none => s.refuse r .noSlot
        | some v, some n =>
          (s.openSlot n (field r.payload 0 1) (field r.payload 1 1) v).answer r
            (if v.clamped = [] then .done else .clamped) (.openStream n v.clamped) := by
  simp only [takeOpen, hd, ne_eq, not_true_eq_false, if_false, hb]
  cases gatherOpen s.ctl.settings blocks <;> cases s.lowestFree <;> rfl

/-- R9, R10: the slot and the branch record that OPEN leaves. -/
theorem openSlot_eq (n branch group : Nat) (v : OpenValues) :
    s.openSlot n branch group v = { s with
      slots := (s.setSlot n (openedSlot branch group v)).slots
      monitor := (s.setBranch branch { s.branch branch with
        bound := some n, margin := some ((s.branch branch).margin.getD s.ctl.settings.margin) }).monitor } := by
  rw [State.openSlot, bind_eq]
  rfl

/-- Settles O27: the checks of `takeOpen` in their order. -/
theorem openFillsASlotOrIsRefused : Obligations.OpenFillsASlotOrIsRefused := by
  refine ⟨fun s r rest blocks v n h hd hb hg hbound hv h₁ h₂ hf hl => ?_, fun s r rest h => ?_⟩
  · have ht := takeOpen_of_blocks hd hb
    simp only [if_neg (Nat.not_le.2 (Nat.lt_succ_of_le hg)), hbound, Option.isSome_none, Bool.false_eq_true, if_false,
      hv, lowestFree_eq h₁ h₂ hf hl] at ht
    rw [exec_of_takesNow rfl h, ht, openSlot_eq, answer_eq (by exact h.1)]
    rfl
  · refine ⟨fun hd => exec_open_refused h (if_pos hd), fun hd => ⟨fun hb => exec_open_refused h ?_,
      fun blocks hb => ?_⟩⟩
    · simp only [takeOpen, hd, ne_eq, not_true_eq_false, if_false, hb]
    · have ht := takeOpen_of_blocks hd hb
      refine ⟨fun hg => exec_open_refused h (ht.trans (if_pos hg)), fun hg => ?_⟩
      rw [if_neg (Nat.not_le.2 (Nat.lt_succ_of_le hg))] at ht
      refine ⟨fun hbound => exec_open_refused h (ht.trans (if_pos (Option.isSome_iff_ne_none.2 hbound))),
        fun hbound => ?_⟩
      simp only [hbound, Option.isSome_none, Bool.false_eq_true, if_false] at ht
      refine ⟨fun hv => exec_open_refused h ?_, fun hv hl => exec_open_refused h ?_⟩
      · simp only [ht, hv]
      · obtain ⟨v, hv⟩ := Option.ne_none_iff_exists'.1 hv
        simp only [ht, hv, lowestFree_eq_none hl]

/-! ## STREAM CLOSED -/

theorem inService_iff : s.inService = true ↔ s.ctl.dev = .service ∧ s.ctl.pinHeld = false := by
  simp [State.inService]

theorem closeDue_iff (sl : Slot) :
    sl.closeDue = true ↔ (sl.state = .draining ∨ sl.state = .aborting) ∧ sl.finalMade = true ∧ sl.madeBatch = none ∧
      sl.reportSlot = none ∧ sl.waiting = none ∧ sl.heldReport = none := by
  simp [Slot.closeDue, and_assoc]

/-- A lane lets the stream of slot `n` go, if it holds it (log entry 8). -/
def laneLetGo (n : Nat) (s : State) (l : Nat) : State :=
  match (s.lane l).work with
  | some w => if w.slot = n then { s.setLane l .idle with waitOrder := s.waitOrder.filter (fun k => k != l) } else s
  | none => s

theorem freeSlot_eq_foldl (s : State) (n : Nat) :
    s.freeSlot n = [1, 2, 3, 4].foldl (laneLetGo n)
      ((s.setBranch ((s.slot n).branch.getD 0) { s.branch ((s.slot n).branch.getD 0) with bound := none }).setSlot n
        .free) := rfl

theorem laneLetGo_of_holds {n l : Nat} {w : Work} (hw : (s.lane l).work = some w) (hn : w.slot = n) :
    laneLetGo n s l = { s.setLane l .idle with waitOrder := s.waitOrder.filter (fun k => k != l) } := by
  simp only [laneLetGo, hw, if_pos hn]

theorem laneLetGo_of_other {n l : Nat} (h : ∀ w, (s.lane l).work = some w → w.slot ≠ n) : laneLetGo n s l = s := by
  unfold laneLetGo
  split
  · next w hw => exact if_neg (h w hw)
  · rfl

theorem lane_laneLetGo {n l k : Nat} (h : k ≠ l) : (laneLetGo n s l).lane k = s.lane k := by
  have hset : (s.setLane l .idle).lane k = s.lane k := (State.lane_setLane s l _ k).trans (if_neg h)
  unfold laneLetGo
  split
  · split
    · exact hset
    · rfl
  · rfl

theorem foldl_laneLetGo_of_others {n : Nat} {ls : List Nat}
    (h : ∀ l ∈ ls, ∀ w, (s.lane l).work = some w → w.slot ≠ n) : ls.foldl (laneLetGo n) s = s := by
  induction ls with
  | nil => rfl
  | cons l ls ih =>
    obtain ⟨hl, hls⟩ := List.forall_mem_cons.1 h
    rw [List.foldl_cons, laneLetGo_of_other hl, ih hls]

/-- Where one lane alone holds the stream, that lane lets go and no other changes. -/
theorem foldl_laneLetGo {n l : Nat} {ls : List Nat} (hl : l ∈ ls) (hd : ls.Nodup)
    (h : ∀ m, m ≠ l → ∀ w, (s.lane m).work = some w → w.slot ≠ n) :
    ls.foldl (laneLetGo n) s = laneLetGo n s l := by
  induction ls with
  | nil => cases hl
  | cons m ls ih =>
    obtain ⟨hm, hd⟩ := List.nodup_cons.1 hd
    rw [List.foldl_cons]
    by_cases e : m = l
    · subst e
      refine foldl_laneLetGo_of_others fun k hk => ?_
      have hkm : k ≠ m := fun e => hm (e ▸ hk)
      rw [lane_laneLetGo hkm]
      exact h k hkm
    · rw [laneLetGo_of_other (h m e), ih ((List.mem_cons.1 hl).resolve_left fun x => e x.symm) hd]

/-- A slot becomes FREE while one lane still stands at the stream's END marker, and that lane becomes IDLE. -/
theorem freeSlot_eq_of_lane {n b l : Nat} {w : Work} (hb : (s.slot n).branch = some b) (hl : l ∈ [1, 2, 3, 4])
    (hw : (s.lane l).work = some w) (hn : w.slot = n)
    (ho : ∀ m, m ≠ l → ∀ w', (s.lane m).work = some w' → w'.slot ≠ n) :
    s.freeSlot n = { s with
      slots := (s.setSlot n Slot.free).slots
      monitor := (s.setBranch b { s.branch b with bound := none }).monitor
      lanes := (s.setLane l ⟨.idle, none⟩).lanes
      waitOrder := s.waitOrder.filter (fun m => m != l) } := by
  rw [freeSlot_eq_foldl, hb, Option.getD_some]
  refine (foldl_laneLetGo hl (by decide) ?_).trans (laneLetGo_of_holds ?_ hn)
  · exact ho
  · exact hw

/-- STREAM CLOSED enters while one lane still stands at the stream's END marker. -/
theorem tryClose_eq_of_lane {n b l : Nat} {w : Work} (hi : s.inService = true) (hc : (s.slot n).closeDue = true)
    (hr : s.link.notices.length < 128) (hb : (s.slot n).branch = some b) (hl : l ∈ [1, 2, 3, 4])
    (hw : (s.lane l).work = some w) (hn : w.slot = n)
    (ho : ∀ m, m ≠ l → ∀ w', (s.lane m).work = some w' → w'.slot ≠ n) :
    s.tryClose n = { s.streamClosed n b (s.slot n) with
      lanes := (s.setLane l ⟨.idle, none⟩).lanes
      waitOrder := s.waitOrder.filter (fun m => m != l) } := by
  simp only [State.tryClose, hi, hc, hasRoom_eq, hr, decide_true, Bool.and_self, if_true]
  rw [freeSlot_eq_of_lane (s := s.enter _) hb hl hw hn ho]
  simp only [closedNotice, hb, Option.getD_some]
  rfl

/-- Settles O34, by the two ways in which the slot is freed: with no lane at the stream, and with one. -/
theorem streamClosedFreesTheSlot : Obligations.StreamClosedFreesTheSlot := by
  intro s n b hd hp hst hfin hmade hrep hwait hheld hb
  have hi : s.inService = true := inService_iff.2 ⟨hd, hp⟩
  have hc : (s.slot n).closeDue = true := (closeDue_iff _).2 ⟨hst, hfin, hmade, hrep, hwait, hheld⟩
  refine ⟨fun hl hr => congrArg _ (tryClose_eq s n b hi hc hr hb hl), fun l w h₁ h₂ hw hn ho hr => ?_,
    fun hr => congrArg _ (tryClose_eq_self s n (.inr hr))⟩
  have hl : l ∈ [1, 2, 3, 4] := by simp only [List.mem_cons, List.not_mem_nil, or_false]; omega
  exact congrArg _ (tryClose_eq_of_lane hi hc hr hb hl hw hn ho)

/-! ## CLOSE -/

theorem takeClose_refused {reason : Reason} (hq : s.link.requests = r :: rest) (ha : s.streamCheck r = none)
    (hr : closeReason (s.slot r.stream) = some reason) :
    takeClose r s = { s with link := s.replied r rest (.refused reason) .none } := by
  simp only [takeClose, ha, hr]
  exact refuse_eq hq _

theorem takeClose_taken (hq : s.link.requests = r :: rest) (ha : s.streamCheck r = none)
    (hr : closeReason (s.slot r.stream) = none) :
    takeClose r s = { s with
      slots := (s.setSlot r.stream { s.slot r.stream with
        state := .draining, queue := (s.slot r.stream).queue ++ [.endMark (s.slot r.stream).nextOffset] }).slots
      link := s.replied r rest .done .none } := by
  simp only [takeClose, ha, hr]
  exact answer_eq (s := s.setSlot _ _) hq _ _

/-! ## ABORT -/

/-- R17: the slot once its entries that no lane holds have been discarded. -/
def abortedSlot (s : State) (n : Nat) : Slot :=
  { s.slot n with state := .aborting, queue := if s.laneHolds n = true then (s.slot n).queue.take 1 else [] }

/-- R17: the state once ABORT has been answered. -/
def abortReplied (s : State) (r : Request) (rest : List Request) : State :=
  { s with
    link := s.replied r rest .done (.abort ((s.slot r.stream).queue.length - (abortedSlot s r.stream).queue.length)) }

/-- R17: and once the slot is ABORTING, before what follows at once. -/
def aborted (s : State) (r : Request) (rest : List Request) : State :=
  (abortReplied s r rest).setSlot r.stream (abortedSlot s r.stream)

theorem takeAbort_eq (hq : s.link.requests = r :: rest) (ha : s.streamCheck r = none) :
    takeAbort r s = (aborted s r rest).afterAbort r.stream := by
  simp only [takeAbort, ha]
  rw [answer_eq (s := s.abortSlot _) hq]
  rfl

section aborted

theorem abortedSlot_ne_free {n : Nat} : abortedSlot s n ≠ Slot.free := Slot.ne_free (by simp [abortedSlot])

theorem slot_aborted : (aborted s r rest).slot r.stream = abortedSlot s r.stream := by
  rw [aborted, State.slot_setSlot, if_pos rfl]

/-- What is written to the slot after the ABORT stands in place of the ABORTING slot. -/
theorem setSlot_aborted (v : Slot) :
    (aborted s r rest).setSlot r.stream v = (abortReplied s r rest).setSlot r.stream v :=
  setSlot_setSlot _ _ _ abortedSlot_ne_free

theorem noSealBehind_aborted (h : s.NoSealBehind r.stream) : (aborted s r rest).NoSealBehind r.stream := by
  intro hp m hm
  rw [aborted, State.slot_setSlot, if_neg hm]
  exact h hp m hm

theorem lastBatchDue_aborted (hf : (s.slot r.stream).finalMade = false) :
    (aborted s r rest).lastBatchDue r.stream = true ↔
      (s.slot r.stream).reserved = 0 ∧ s.laneHolds r.stream = false := by
  have hl : (aborted s r rest).laneHolds r.stream = s.laneHolds r.stream := rfl
  simp only [State.lastBatchDue, slot_aborted, hl]
  simp [abortedSlot, hf]

theorem afterAbort_of_not_final (hf : (s.slot r.stream).finalMade = false) :
    (aborted s r rest).afterAbort r.stream =
      if (aborted s r rest).lastBatchDue r.stream then (aborted s r rest).callBatch r.stream
      else aborted s r rest := by
  have hf' : ((aborted s r rest).slot r.stream).finalMade = false := by rw [slot_aborted]; exact hf
  rw [State.afterAbort, hf', if_neg Bool.false_ne_true]

/-- R17: with the stream still in a lane or in the lookup queue, nothing more follows at once. -/
theorem afterAbort_of_waiting (hf : (s.slot r.stream).finalMade = false)
    (hw : s.laneHolds r.stream = true ∨ (s.slot r.stream).reserved ≠ 0) :
    (aborted s r rest).afterAbort r.stream = aborted s r rest := by
  rw [afterAbort_of_not_final hf, if_neg]
  rw [lastBatchDue_aborted hf]
  rintro ⟨hr, hl⟩
  exact hw.elim (fun h => Bool.false_ne_true (hl.symm.trans h)) (fun h => h hr)

/-- R111: otherwise the last batch is called for, and becomes due behind a made batch. -/
theorem afterAbort_behind_batch (hf : (s.slot r.stream).finalMade = false) (hl : s.laneHolds r.stream = false)
    (hr : (s.slot r.stream).reserved = 0) (hm : (s.slot r.stream).madeBatch ≠ none) :
    (aborted s r rest).afterAbort r.stream =
      (abortReplied s r rest).setSlot r.stream { abortedSlot s r.stream with due := true } := by
  rw [afterAbort_of_not_final hf, if_pos ((lastBatchDue_aborted hf).2 ⟨hr, hl⟩),
    callBatch_of_made _ _ (by rw [slot_aborted]; exact hf) (by rw [slot_aborted]; exact hm), slot_aborted,
    setSlot_aborted]

/-- R111, R18: or it is made at once, with both flags. -/
theorem afterAbort_makes_last (hf : (s.slot r.stream).finalMade = false) (hl : s.laneHolds r.stream = false)
    (hr : (s.slot r.stream).reserved = 0) (hm : (s.slot r.stream).madeBatch = none) (hn : s.NoSealBehind r.stream) :
    (aborted s r rest).afterAbort r.stream = ((abortReplied s r rest).discarded r.stream).setSlot r.stream
      ((abortedSlot s r.stream).batchMade true true).reportsDiscarded := by
  have hdue := (lastBatchDue_aborted (rest := rest) hf).2 ⟨hr, hl⟩
  rw [afterAbort_of_not_final hf, if_pos hdue,
    callBatch_of_empty _ _ (by rw [slot_aborted]; exact hf) (by rw [slot_aborted]; exact hm),
    makeBatch_of_aborting _ _ hdue (by rw [slot_aborted]; rfl) (noSealBehind_aborted hn), slot_aborted,
    setSlot_aborted]
  rfl

/-- R18: the discard of a slot's reports changes its mark, its spans and its report places alone. -/
theorem reportsDiscarded_cases (sl : Slot) : ∃ mark current ended, sl.reportsDiscarded = { sl with
    mark := mark, current := current, ended := ended, reportSlot := none, waiting := none, heldReport := none } := by
  unfold Slot.reportsDiscarded Slot.markDropped
  split
  · exact ⟨_, _, _, rfl⟩
  · split <;> exact ⟨_, _, _, rfl⟩

theorem branch_reportsDiscarded (sl : Slot) : sl.reportsDiscarded.branch = sl.branch := by
  obtain ⟨mark, current, ended, hd⟩ := reportsDiscarded_cases sl
  rw [hd]

theorem state_reportsDiscarded (sl : Slot) : sl.reportsDiscarded.state = sl.state := by
  obtain ⟨mark, current, ended, hd⟩ := reportsDiscarded_cases sl
  rw [hd]

/-- With its reports discarded, an ABORTING slot is freed once its FINAL batch has been transmitted. -/
theorem closeDue_reportsDiscarded {sl : Slot} (hs : sl.state = .aborting) :
    sl.reportsDiscarded.closeDue = true ↔ sl.finalMade = true ∧ sl.madeBatch = none := by
  obtain ⟨mark, current, ended, hd⟩ := reportsDiscarded_cases sl
  rw [hd, closeDue_iff]
  simp only [hs, or_true, true_and, and_true]

/-- STREAM CLOSED says the same of a slot whose reports have been discarded. -/
theorem streamClosed_reportsDiscarded (n b : Nat) (sl : Slot) :
    s.streamClosed n b sl.reportsDiscarded = s.streamClosed n b sl := by
  obtain ⟨mark, current, ended, hd⟩ := reportsDiscarded_cases sl
  rw [hd]
  rfl

/-- The slot that STREAM CLOSED frees may have held anything but the FREE slot's values. -/
theorem streamClosed_setSlot (n b : Nat) (v sl : Slot) (hv : v ≠ Slot.free) :
    (s.setSlot n v).streamClosed n b sl = s.streamClosed n b sl := by
  rw [State.streamClosed, setSlot_setSlot n v Slot.free hv]
  rfl

/-- R17, R18: the state once an ABORT after the FINAL batch has discarded the stream's reports. -/
def reportsGone (s : State) (r : Request) (rest : List Request) : State :=
  ((abortReplied s r rest).discarded r.stream).setSlot r.stream (abortedSlot s r.stream).reportsDiscarded

theorem slot_reportsGone : (reportsGone s r rest).slot r.stream = (abortedSlot s r.stream).reportsDiscarded := by
  rw [reportsGone, State.slot_setSlot, if_pos rfl]

/-- R18: after a FINAL batch the discards come at once, and then STREAM CLOSED if it is due. -/
theorem afterAbort_of_final (hf : (s.slot r.stream).finalMade = true) (hn : s.NoSealBehind r.stream) :
    (aborted s r rest).afterAbort r.stream = (reportsGone s r rest).tryClose r.stream := by
  rw [State.afterAbort, if_pos (by rw [slot_aborted]; exact hf), discardReports_eq _ _ (noSealBehind_aborted hn),
    slot_aborted, setSlot_aborted]
  rfl

theorem tryClose_reportsGone_self (h : (s.slot r.stream).madeBatch ≠ none ∨ 128 ≤ s.link.notices.length) :
    (reportsGone s r rest).tryClose r.stream = reportsGone s r rest := by
  refine tryClose_eq_self _ _ (h.imp_left fun hm => ?_)
  rw [slot_reportsGone, ← Bool.not_eq_true, closeDue_reportsDiscarded rfl]
  exact fun hc => hm hc.2

/-- R16, R18: with the FINAL batch transmitted and room for it, STREAM CLOSED (ABORTED) follows. -/
theorem tryClose_reportsGone {b : Nat} (hi : s.inService = true) (hf : (s.slot r.stream).finalMade = true)
    (hm : (s.slot r.stream).madeBatch = none) (hr : s.link.notices.length < 128)
    (hb : (s.slot r.stream).branch = some b) (hl : s.laneHolds r.stream = false) :
    (reportsGone s r rest).tryClose r.stream =
      ((abortReplied s r rest).discarded r.stream).streamClosed r.stream b (abortedSlot s r.stream) := by
  have hc : ((reportsGone s r rest).slot r.stream).closeDue = true := by
    rw [slot_reportsGone, closeDue_reportsDiscarded rfl]
    exact ⟨hf, hm⟩
  have hb' : ((reportsGone s r rest).slot r.stream).branch = some b := by
    rw [slot_reportsGone, branch_reportsDiscarded]
    exact hb
  have hne : (abortedSlot s r.stream).reportsDiscarded ≠ Slot.free :=
    Slot.ne_free (by rw [state_reportsDiscarded]; show SlotState.aborting ≠ .free; decide)
  have hi' : (reportsGone s r rest).inService = true := hi
  have hr' : (reportsGone s r rest).link.notices.length < 128 := hr
  have hl' : (reportsGone s r rest).laneHolds r.stream = false := hl
  rw [tryClose_eq _ _ b hi' hc hr' hb' hl', slot_reportsGone, streamClosed_reportsDiscarded, reportsGone,
    streamClosed_setSlot _ _ _ _ hne]

end aborted

/-- ABORT is taken in the state that has noted the errors met by the container reads. -/
theorem exec_abort {k : Nat} (h : s.TakesNow .abort r rest) (ha : s.Addressed r) :
    exec (.abort k) s = .next ((aborted (s.noteCorrected k) r rest).afterAbort r.stream) := by
  have hc : (s.noteCorrected k).streamCheck r = none := (streamCheck_noteCorrected k).trans (streamCheck_eq_none ha)
  have hq : (s.noteCorrected k).link.requests = r :: rest := h.1
  rw [exec_of_takesNow rfl h, takeAbort_eq hq hc]

/-- Settles O33: CLOSE by its two checks, ABORT by what follows at once on the ABORTING slot. -/
theorem closeAndAbortEndTheStream : Obligations.CloseAndAbortEndTheStream := by
  refine ⟨fun s r rest h haddr => ?_, fun k s r rest h haddr => ?_⟩
  · have ha : s.streamCheck r = none := streamCheck_eq_none haddr
    refine ⟨fun hm => ?_, fun hm hq => ?_, fun hm hq => ?_⟩
    · rw [exec_of_takesNow rfl h, takeClose_refused h.1 ha (if_pos hm)]
    · rw [exec_of_takesNow rfl h, takeClose_refused h.1 ha ((if_neg (not_not.2 hm)).trans (if_pos hq))]
    · rw [exec_of_takesNow rfl h,
        takeClose_taken h.1 ha ((if_neg (not_not.2 hm)).trans (if_neg (Nat.not_le.2 hq)))]
  · have he := exec_abort (k := k) h haddr
    have hi : (s.noteCorrected k).inService = true := inService_iff.2 ⟨haddr.1, pinHeld_of_takesNow h⟩
    refine ⟨fun hf => ⟨fun hw => ?_, fun hl hr => ⟨fun hm => ?_, fun hm hn => ?_⟩⟩, fun hf hn => ⟨fun hm => ?_,
      fun b hm hr hb hl => ?_⟩⟩
    · exact he.trans (congrArg _ (afterAbort_of_waiting (s := s.noteCorrected k) hf hw))
    · exact he.trans (congrArg _ (afterAbort_behind_batch (s := s.noteCorrected k) hf hl hr hm))
    · exact he.trans (congrArg _ (afterAbort_makes_last (s := s.noteCorrected k) hf hl hr hm hn))
    · rw [he, afterAbort_of_final (s := s.noteCorrected k) hf hn,
        tryClose_reportsGone_self (s := s.noteCorrected k) hm]
      rfl
    · rw [he, afterAbort_of_final (s := s.noteCorrected k) hf hn,
        tryClose_reportsGone (s := s.noteCorrected k) hi hf hm hr hb hl]
      rfl

end Sys2Proof.BranchStreams

/-! PROOFS. Finding chunk boundaries (chapter 2): the CHUNKING block and its gear table, the tests after a byte, a
lane's cuts, its wait for the lookup queue, the markers, and the end of an entry. Each lane row is reduced once to what
it does in its case (`exec_lane…`), each shared operation of a lane has an equation per case, and the obligations are
assembled from these. -/

namespace Sys2Proof.ChunkBoundaries

open Machine BranchStreams

variable {s : State} {l n m off : Nat} {bytes : List Byte} {w : Work} {x : Ctx} {cut : CutReason} {lk : Lookup}

/-! ## The CHUNKING block -/

section block

variable {name g : ClampField} {lo hi v : Nat}

theorem clampNamed_fst (h : lo ≤ hi) : (clampNamed name lo hi v).1 = max lo (min hi v) := clampTo_eq lo hi v h

/-- R8: a field is named exactly when the clamping changed it. -/
theorem mem_clampNamed_snd : g ∈ (clampNamed name lo hi v).2 ↔ g = name ∧ (clampNamed name lo hi v).1 ≠ v := by
  simp only [clampNamed]
  split <;> simp_all

theorem clampNamed_snd_sublist : (clampNamed name lo hi v).2.Sublist [name] := by
  simp only [clampNamed]
  split <;> simp

end block

/-- R24: the gear value of a byte, where the table was made from a seed. -/
theorem gearOf_toNat {p : Profile} {seed : Nat} (h : p.gear = gearTable seed) (b : Byte) :
    (p.gearOf b).toNat = ((b.toNat + 1) * 2654435761 + seed) % 4294967296 := by
  have hb : b.toNat < 256 := b.isLt
  simp [Profile.gearOf, h, gearTable, hb]

/-- Settles O29: the names field by field, since each block of names holds its own field or none. -/
theorem chunkingBlockIsClamped : Obligations.ChunkingBlockIsClamped := by
  intro f sent lmin lmax ks ltgt kl
  have hlmin : (clampNamed .lmin 256 16384 (field f 0 4)).1 = lmin := clampNamed_fst (by decide)
  have hlmax : (clampNamed .lmax 1024 65536 (field f 8 4)).1 = lmax := clampNamed_fst (by decide)
  have hks : (clampNamed .ks 8 20 (field f 12 1)).1 = ks := clampNamed_fst (by decide)
  have hkl : (clampNamed .kl 6 ks (field f 13 1)).1 = kl := clampNamed_fst (by omega)
  unfold profileOfBlock
  simp only [hlmin, hlmax, hks]
  refine ⟨fun h => if_pos h, fun h => ?_⟩
  have hltgt : (clampNamed .ltgt lmin lmax (field f 4 4)).1 = ltgt := clampNamed_fst h
  refine ⟨_, _, if_neg (Nat.not_lt.2 h), rfl, hltgt, rfl, rfl, hkl, rfl, ?_, ?_, gearOf_toNat rfl, ?_, ?_⟩
  · exact hltgt ▸ Nat.le_max_left ..
  · exact hltgt ▸ Nat.max_le.2 ⟨h, Nat.min_le_left ..⟩
  · exact (((clampNamed_snd_sublist.append clampNamed_snd_sublist).append clampNamed_snd_sublist).append
      clampNamed_snd_sublist).append clampNamed_snd_sublist
  · simp [mem_clampNamed_snd, hlmin, hlmax, hks, hkl, hltgt, sent]

/-! ## The tests after a byte -/

theorem multipleOf_iff {h : Word32} {k : Nat} : multipleOf h k = true ↔ 2 ^ k ∣ h.toNat := by
  simp [multipleOf, Nat.dvd_iff_mod_eq_zero]

section tests

variable {p : Profile}

theorem cutTest_max (h : x.len = p.lmax) : cutTest p x = some .max := if_pos h

theorem cutTest_strict (h : x.len ≠ p.lmax) (h₁ : p.lmin ≤ x.len) (h₂ : x.len < p.ltgt)
    (hh : 2 ^ p.ks ∣ x.hash.toNat) : cutTest p x = some .strict :=
  (if_neg h).trans (if_pos ⟨h₁, h₂, multipleOf_iff.2 hh⟩)

/-- From Ltgt on the STRICT test is past and the LOOSE one decides. -/
theorem cutTest_of_target_le (h : x.len ≠ p.lmax) (h₁ : p.ltgt ≤ x.len) :
    cutTest p x = if 2 ^ p.kl ∣ x.hash.toNat then some .loose else none := by
  have hs : ¬ x.len < p.ltgt := Nat.not_lt.2 h₁
  simp only [cutTest, h, hs, h₁, multipleOf_iff, true_and, false_and, and_false, if_false]

theorem cutTest_none_below_target (h : x.len ≠ p.lmax) (h₁ : x.len < p.ltgt)
    (hh : x.len < p.lmin ∨ ¬ 2 ^ p.ks ∣ x.hash.toNat) : cutTest p x = none := by
  have hs : ¬ (p.lmin ≤ x.len ∧ x.len < p.ltgt ∧ multipleOf x.hash p.ks = true) := by
    rintro ⟨h₂, -, h₃⟩
    exact hh.elim (Nat.not_lt.2 h₂) (fun h₄ => h₄ (multipleOf_iff.1 h₃))
  have hl : ¬ (p.ltgt ≤ x.len ∧ multipleOf x.hash p.kl = true) := fun hl => Nat.not_lt.2 hl.1 h₁
  simp only [cutTest, h, hs, hl, if_false]

/-- R26: the rolling hash is kept modulo 2^32. -/
theorem hash_take {seed : Nat} (h : p.gear = gearTable seed) (b : Byte) :
    (x.take p b).hash.toNat = (2 * x.hash.toNat + ((b.toNat + 1) * 2654435761 + seed)) % 4294967296 := by
  have hg := gearOf_toNat h b
  simp only [Ctx.take, BitVec.toNat_add, BitVec.toNat_mul, hg]
  simp [Nat.add_mod, Nat.mul_mod]

end tests

/-! ## Submitting a chunk -/

/-- R32, R35, R53: the lookup submitted is the one the lane makes of the chunk in its context. -/
theorem chunkLookup_eq (h : s.Submits n x cut lk) : s.chunkLookup n x cut = lk := by
  obtain ⟨slot, span, start, length, fp, reason, bucket⟩ := lk
  obtain ⟨rfl, ⟨sp, hsp, hspan⟩, hstart, hlength, hfp, hcut, hbucket⟩ := h
  simp only at hsp hspan hstart hlength hfp hcut hbucket
  subst hbucket hfp hspan hstart hlength hcut
  simp only [State.chunkLookup, hsp, Option.elim_some, bucketOf]

theorem lookupsFull_iff : s.lookupsFull = true ↔ 64 ≤ s.index.lookups.length + s.waitOrder.length :=
  decide_eq_true_iff

theorem lookupsFull_eq_false (h : s.index.lookups.length + s.waitOrder.length < 64) : s.lookupsFull = false :=
  decide_eq_false (Nat.not_le.2 h)

/-- A lookup that joins raises a count in its slot's spans, and takes no span away. -/
theorem current_joined (lk : Lookup) (h : (s.slot n).current ≠ none) : ((s.joined lk).slot n).current ≠ none := by
  have hslot : (s.joined lk).slot n = if n = lk.slot then
      { (s.slot lk.slot).onSpan lk.span (fun sp => { sp with outstanding := sp.outstanding + 1 }) with
        reserved := (s.slot lk.slot).reserved + 1 } else s.slot n := State.slot_setSlot s lk.slot _ n
  rw [hslot]
  split
  · next e =>
    subst e
    exact mt Option.map_eq_none_iff.1 h
  · exact h

/-! ## Cuts in a data entry -/

theorem exec_laneCut (hs : s.inService = true) (hl : s.lane l = ⟨.working, some w⟩) (he : w.entry = .data off bytes) :
    exec (.laneCut l) s = .next (s.cutData l w) := by
  simp only [exec, execLaneCut, hl, he, hs, if_true]

section cutData

variable {rest : List Byte} (hscan : scan w.profile w.ctx w.rest = (x, rest, some cut))
  (hlk : s.Submits w.slot x cut lk)

include hscan hlk

theorem cutData_of_room (h : s.index.lookups.length + s.waitOrder.length < 64) :
    s.cutData l w = (s.joined lk).setLane l ⟨.working, some { w with rest := rest, ctx := x.cleared }⟩ := by
  simp only [State.cutData, hscan, chunkLookup_eq hlk, lookupsFull_eq_false h, Bool.false_eq_true, if_false,
    joinLookup_eq]

theorem cutData_of_full (h : 64 ≤ s.index.lookups.length + s.waitOrder.length) :
    s.cutData l w = s.laneWait l { w with rest := rest, ctx := x } lk := by
  simp only [State.cutData, hscan, chunkLookup_eq hlk, lookupsFull_iff.2 h, if_true]

end cutData

/-! ## A WAITING lane -/

theorem exec_laneLookupJoin {others : List Nat} (k : Nat) (hs : s.inService = true) (hw : s.waitOrder = l :: others)
    (hl : s.lane l = ⟨.waiting, some w⟩) (hh : w.held = some lk) (hq : s.index.lookups.length < 64) :
    exec (.laneLookupJoin k) s = .next ((s.noteCorrected k).laneResume l w lk) := by
  simp only [exec, execLaneLookupJoin, hw, hl, hh, hs, Config.lookupMax, hq, decide_true, Bool.and_self, if_true]

/-- R36: the held lookup has joined, and its lane has left the order of the WAITING ones. -/
def heldJoined (s : State) (lk : Lookup) : State := { s.joined lk with waitOrder := s.waitOrder.drop 1 }

theorem heldJoined_noteCorrected {others : List Nat} (k : Nat) (hw : s.waitOrder = l :: others) :
    heldJoined (s.noteCorrected k) lk = { (s.joined lk).noteCorrected k with waitOrder := others } := by
  have hd : (s.noteCorrected k).waitOrder.drop 1 = others := congrArg (List.drop 1) hw
  rw [heldJoined, hd]
  rfl

theorem laneResume_data (he : w.entry = .data off bytes) :
    s.laneResume l w lk =
      (heldJoined s lk).setLane l ⟨.working, some { w with ctx := w.ctx.cleared, held := none }⟩ := by
  cases w
  cases he
  rfl

theorem laneResume_mark (he : w.entry = .mark m) : s.laneResume l w lk = (heldJoined s lk).reportMark l w m := by
  cases w
  cases he
  rfl

theorem laneResume_endMark (he : w.entry = .endMark m) :
    s.laneResume l w lk = (heldJoined s lk).reportEnd l w m := by
  cases w
  cases he
  rfl

/-- Settles O42: the scan stops at the cut, and the chunk is looked up or waits. -/
theorem cutsBecomeLookups : Obligations.CutsBecomeLookups := by
  refine ⟨fun s l off bytes pre post b w cut lk hd hp hl he hrest hno hcut hlk => ?_,
    fun k s l off others bytes w lk hd hp hw hl hh he hq => ?_⟩
  · have hscan : scan w.profile w.ctx w.rest = (w.ctx.taking w.profile (pre ++ [b]), post, some cut) :=
      hrest ▸ scan_cut hno hcut
    have hexec := exec_laneCut (inService_iff.2 ⟨hd, hp⟩) hl he
    refine ⟨fun h => ?_, fun h => ?_⟩
    · rw [hexec, cutData_of_room hscan hlk h]
      rfl
    · rw [hexec, cutData_of_full hscan hlk h]
      rfl
  · rw [exec_laneLookupJoin k (inService_iff.2 ⟨hd, hp⟩) hw hl hh hq, laneResume_data he,
      heldJoined_noteCorrected k hw]
    rfl

/-! ## The end of an entry -/

theorem exec_laneEntryFinish_data (k : Nat) (hs : s.inService = true) (hl : s.lane l = ⟨.working, some w⟩)
    (he : w.entry = .data off bytes) (hno : NoCut w.profile w.ctx w.rest) :
    exec (.laneEntryFinish l k) s =
      .next ((s.noteCorrected k).finishEntry l w.slot (w.ctx.taking w.profile w.rest) bytes.length) := by
  simp only [exec, execLaneEntryFinish, hl, hs, he, scan_noCut hno, if_true]

theorem exec_laneEntryFinish_marker (k : Nat) (hs : s.inService = true) (hl : s.lane l = ⟨.working, some w⟩)
    (he : w.entry = .mark m ∨ w.entry = .endMark m) (hm : w.markerDone = true) :
    exec (.laneEntryFinish l k) s = .next ((s.noteCorrected k).finishEntry l w.slot w.ctx 0) := by
  rcases he with he | he <;> simp only [exec, execLaneEntryFinish, hl, hs, he, hm, if_true]

/-- R37, R111: the lane has let the stream go, and the last batch is called for if its conditions hold then. -/
theorem finishEntry_lastCalled (length : Nat) :
    State.LastCalled ((s.setSlot n ((s.slot n).finishEntry x length)).setLane l .idle) n
      (s.finishEntry l n x length) := lastBatch_called _ n

/-- Settles O43: the tests by their order, the end of an entry by its kind. -/
theorem bytesAreTakenUntilTheEntryEnds : Obligations.BytesAreTakenUntilTheEntryEnds := by
  refine ⟨⟨fun p x => ⟨cutTest_max, cutTest_strict, fun h h₁ hh => ?_, cutTest_none_below_target, fun h h₁ hh => ?_⟩,
    fun p x b seed hg => ⟨rfl, rfl, hash_take hg b, List.reverse_cons⟩⟩, fun k s l w hd hp hl => ?_⟩
  · rw [cutTest_of_target_le h h₁, if_pos hh]
  · rw [cutTest_of_target_le h h₁, if_neg hh]
  · have hs : s.inService = true := inService_iff.2 ⟨hd, hp⟩
    exact ⟨fun off bytes he hno => ⟨_, exec_laneEntryFinish_data k hs hl he hno,
        finishEntry_lastCalled (s := s.noteCorrected k) bytes.length⟩,
      fun m he hm => ⟨_, exec_laneEntryFinish_marker k hs hl he hm, finishEntry_lastCalled (s := s.noteCorrected k) 0⟩⟩

/-! ## Markers -/

theorem exec_laneMarkMarker (k : Nat) (hs : s.inService = true) (hl : s.lane l = ⟨.working, some w⟩)
    (he : w.entry = .mark m) (hm : w.markerDone = false) :
    exec (.laneMarkMarker l k) s =
      .next ((s.noteCorrected k).cutMarker l w .mark (fun s => s.reportMark l w m)) := by
  simp only [exec, execLaneMarkMarker, hl, he, hs, hm, Bool.not_false, Bool.and_self, if_true]

theorem exec_laneEndMarker (hs : s.inService = true) (hl : s.lane l = ⟨.working, some w⟩)
    (he : w.entry = .endMark m) (hm : w.markerDone = false) :
    exec (.laneEndMarker l) s = .next (s.cutMarker l w .endCut (fun s => s.reportEnd l w m)) := by
  simp only [exec, execLaneEndMarker, hl, he, hs, hm, Bool.not_false, Bool.and_self, if_true]

section cutMarker

variable {report : State → State}

theorem cutMarker_of_empty (h : w.ctx.len = 0) : s.cutMarker l w cut report = report s := by
  simp only [State.cutMarker, h, Nat.lt_irrefl, if_false]

theorem cutMarker_of_room (h : 0 < w.ctx.len) (hlk : s.Submits w.slot w.ctx cut lk)
    (hr : s.index.lookups.length + s.waitOrder.length < 64) : s.cutMarker l w cut report = report (s.joined lk) := by
  simp only [State.cutMarker, h, if_true, chunkLookup_eq hlk, lookupsFull_eq_false hr, Bool.false_eq_true, if_false,
    joinLookup_eq]

theorem cutMarker_of_full (h : 0 < w.ctx.len) (hlk : s.Submits w.slot w.ctx cut lk)
    (hr : ¬ s.index.lookups.length + s.waitOrder.length < 64) : s.cutMarker l w cut report = s.laneWait l w lk := by
  simp only [State.cutMarker, h, if_true, chunkLookup_eq hlk, lookupsFull_iff.2 (Nat.not_lt.1 hr)]

end cutMarker

/-- The corrected errors noted have no part in the lookup. -/
theorem submits_noteCorrected (k : Nat) (h : s.Submits n x cut lk) : (s.noteCorrected k).Submits n x cut lk := h

/-- Settles O44: the open chunk is none, submitted or held, and then the marker is reported. -/
theorem markersAreConsumed : Obligations.MarkersAreConsumed := by
  refine ⟨fun s l m w hd hp hl hm hc => ⟨fun k he => ?_, fun he => ?_⟩,
    fun k s l m others w lk hd hp hw hl hh hq _ hc => ?_⟩
  · have hexec := exec_laneMarkMarker k (inService_iff.2 ⟨hd, hp⟩) hl he hm
    refine ⟨fun h => ⟨_, hexec, ?_⟩, fun lk h hlk => ⟨fun hr => ⟨_, hexec, ?_⟩, fun hr => ?_⟩⟩
    · rw [cutMarker_of_empty h]
      exact reportMark_consumed _ l w m hc
    · rw [cutMarker_of_room h (submits_noteCorrected k hlk) hr]
      exact reportMark_consumed ((s.joined lk).noteCorrected k) l w m (current_joined lk hc)
    · rw [hexec, cutMarker_of_full h (submits_noteCorrected k hlk) hr]
      rfl
  · have hexec := exec_laneEndMarker (inService_iff.2 ⟨hd, hp⟩) hl he hm
    refine ⟨fun h => ⟨_, hexec, ?_⟩, fun lk h hlk => ⟨fun hr => ⟨_, hexec, ?_⟩, fun hr => ?_⟩⟩
    · rw [cutMarker_of_empty h]
      exact reportEnd_consumed s l w m
    · rw [cutMarker_of_room h hlk hr]
      exact reportEnd_consumed (s.joined lk) l w m
    · rw [hexec, cutMarker_of_full h hlk hr]
      rfl
  · have hexec := exec_laneLookupJoin k (inService_iff.2 ⟨hd, hp⟩) hw hl hh hq
    refine ⟨fun he => ?_, fun he => ?_⟩
    · rw [laneResume_mark he, heldJoined_noteCorrected k hw] at hexec
      exact ⟨_, hexec, reportMark_consumed _ l w m (current_joined lk hc)⟩
    · rw [laneResume_endMark he, heldJoined_noteCorrected k hw] at hexec
      exact ⟨_, hexec, reportEnd_consumed _ l w m⟩

end Sys2Proof.ChunkBoundaries

/-! PROOFS. Scheduling the lanes (chapter 3): a stream's six conditions, the end of a frame and the one that follows
it, and the grant. The searches of the scheduler and the end of its frame are tied to the words the obligations use
(`idleLane_eq`, `chosen_eq`, `frameEnds_iff`), GRANT is said once (`exec_grant`), and the obligations are assembled from
these. -/

namespace Sys2Proof.LaneScheduling

open Machine BranchStreams

variable {s : State} {l n : Nat}

/-! ## The six conditions -/

theorem groupBlocked_eq_false :
    s.groupBlocked n = false ↔ ∀ g, s.index.starving = some g → (s.slot n).group ≠ some g := by
  simp only [State.groupBlocked]
  cases s.index.starving <;> simp

theorem verdictRoom_iff (sl : Slot) :
    sl.placesUsed + Config.grantReserve ≤ Config.verdictPlaces ↔ 16 ≤ 64 - (sl.filled.length + sl.reserved) := by
  simp only [Slot.placesUsed, Config.grantReserve, Config.verdictPlaces]
  omega

theorem depRoom_iff (sp : Span) :
    sp.deps.length + sp.outstanding + Config.grantReserve ≤ Config.depMax ↔
      16 ≤ 32 - sp.deps.length - sp.outstanding := by
  simp only [Config.grantReserve, Config.depMax]
  omega

/-- Settles O40: each condition of the model is the manual's, the room left counted from the other end. -/
theorem eligibleExactlyWhenSixConditionsHold : Obligations.EligibleExactlyWhenSixConditionsHold := by
  intro s n
  rw [← laneHolds_eq_false, ← groupBlocked_eq_false, ← verdictRoom_iff]
  cases hc : (s.slot n).current with
  | none => simp [State.eligible, hc]
  | some sp => simp [State.eligible, hc, ← depRoom_iff, and_assoc]

/-- R41: an ACTIVE or DRAINING stream is one that is there. -/
theorem ne_free_of_eligible (h : s.eligible n = true) : (s.slot n).state ≠ .free := by
  intro hf
  simp [State.eligible, hf] at h

/-! ## The end of a frame -/

theorem mem_eligibleSlots : n ∈ s.eligibleSlots ↔ 1 ≤ n ∧ n ≤ 64 ∧ s.eligible n = true := by
  simp only [State.eligibleSlots, List.mem_filter, List.mem_range'_1, Config.slotCount, ← and_assoc]
  exact and_congr_left fun _ => by omega

theorem getD_pos_iff (o : Option Nat) : 0 < o.getD 0 ↔ ∃ w, o = some w ∧ 0 < w := by
  cases o <;> simp

theorem eligibleSlots_nonempty (h₁ : 1 ≤ n) (h₂ : n ≤ 64) (he : s.eligible n = true) :
    s.eligibleSlots.isEmpty = false :=
  List.isEmpty_eq_false_iff_exists_mem.2 ⟨n, mem_eligibleSlots.2 ⟨h₁, h₂, he⟩⟩

/-- R44: a stream with weight is an eligible one, so that the model's own test for one adds nothing. -/
theorem frameEnds_iff : s.frameEnds = true ↔ s.FrameOver := by
  simp only [State.frameEnds, State.FrameOver, Bool.or_eq_true, Bool.and_eq_true, decide_eq_true_eq,
    Bool.not_eq_true', List.all_eq_true, List.any_eq_true, mem_eligibleSlots, beq_iff_eq, and_imp, getD_pos_iff,
    and_assoc]
  refine or_congr_right ⟨And.right, ?_⟩
  rintro ⟨hspent, m, h₁, h₂, he, hweight⟩
  exact ⟨eligibleSlots_nonempty h₁ h₂ he, hspent, m, h₁, h₂, he, hweight⟩

/-! ## A new frame -/

theorem frameStart_eq_newFrame : s.frameStart = s.newFrame := rfl

theorem slot_newFrame : s.newFrame.slot n = (s.slot n).frameStart := State.slot_mapSlots s Slot.frameStart rfl n

/-- R44: a frame start touches the two weights and the budget. -/
theorem frameStart_cases (sl : Slot) : ∃ active pending budget,
    sl.frameStart = { sl with activeWeight := active, pendingWeight := pending, budget := budget } := by
  simp only [Slot.frameStart]
  split
  · exact ⟨sl.activeWeight, sl.pendingWeight, sl.budget, rfl⟩
  · exact ⟨_, _, _, rfl⟩

theorem frameStart_of_ne_free {sl : Slot} (h : sl.state ≠ .free) :
    sl.frameStart.activeWeight = sl.frameStart.budget ∧ sl.frameStart.pendingWeight = none := by
  simp [Slot.frameStart, h]

/-- R41: no condition looks at a weight or a budget. -/
theorem eligible_newFrame : s.newFrame.eligible n = s.eligible n := by
  obtain ⟨active, pending, budget, h⟩ := frameStart_cases (s.slot n)
  simp only [State.eligible, State.groupBlocked, slot_newFrame, h]
  rfl

/-- A stream without budget in a frame just begun has no weight either, so that no second frame start is due. -/
theorem not_frameOver_newFrame : ¬ s.newFrame.FrameOver := by
  rintro (hlen | ⟨hspent, m, h₁, h₂, he, hweight⟩)
  · have : 0 < 2 ^ s.ctl.settings.frameExp := Nat.two_pow_pos _
    exact absurd hlen (Nat.not_le.2 this)
  · have hb := hspent m h₁ h₂ he
    obtain ⟨hactive, hpending⟩ := frameStart_of_ne_free (ne_free_of_eligible (eligible_newFrame ▸ he))
    rw [slot_newFrame] at hb hweight
    simp [hactive, hpending, hb] at hweight

/-! ## The scheduler's searches -/

theorem idleLane_eq (h : s.LowestIdle l) : s.idleLane = some l := by
  obtain ⟨h₁, h₄, hidle, hlower⟩ := h
  exact find_range' (by simpa using hidle) h₁ (by simp only [Config.laneCount]; omega)
    fun k h h' => by simpa using hlower k h h'

theorem chosen_eq (ha : 1 ≤ s.sched.startSlot) (ha' : s.sched.startSlot ≤ 64) (h₁ : 1 ≤ n) (h₂ : n ≤ 64)
    (he : s.eligible n = true) (hb : 0 < (s.slot n).budget)
    (hfirst : ∀ m, 1 ≤ m → m ≤ 64 → s.eligible m = true → 0 < (s.slot m).budget →
      (n + 64 - s.sched.startSlot) % 64 ≤ (m + 64 - s.sched.startSlot) % 64) : s.chosen = some n := by
  obtain ⟨a, hstart⟩ := Nat.exists_eq_add_of_le' ha
  have order : s.searchOrder = List.range' (a + 1) (64 - a) ++ List.range' 1 a := by
    simp only [State.searchOrder, hstart, Nat.add_sub_cancel, Nat.add_sub_add_right]
  rw [State.chosen, order]
  refine find_wrapped (by omega) (by simp [he, hb]) h₁ h₂ fun m hm hm' hp => ?_
  obtain ⟨hem, hbm⟩ : s.eligible m = true ∧ 0 < (s.slot m).budget := by simpa using hp
  have := hfirst m hm hm' hem hbm
  omega

/-! ## GRANT -/

/-- R45: at most one grant on lane `l`, the frame being settled. -/
def grantOn (s : State) (l : Nat) : State := s.chosen.elim s (s.grantTo l)

theorem grantOn_of_chosen (h : s.chosen = some n) : grantOn s l = s.grantTo l n := by
  rw [grantOn, h, Option.elim_some]

theorem exec_grant (hd : s.ctl.dev = .service) (hp : s.ctl.pinHeld = false) (hl : s.LowestIdle l) (h₁ : 1 ≤ n)
    (h₂ : n ≤ 64) (he : s.eligible n = true) :
    exec .grant s = .next (grantOn (if s.frameEnds = true then s.newFrame else s) l) := by
  simp only [exec, execGrant, idleLane_eq hl, inService_iff.2 ⟨hd, hp⟩, eligibleSlots_nonempty h₁ h₂ he,
    Bool.not_false, Bool.and_self, if_true, frameStart_eq_newFrame, grantOn]
  generalize (if s.frameEnds = true then s.newFrame else s) = t
  cases t.chosen <;> rfl

theorem exec_grant_of_frameOver (hd : s.ctl.dev = .service) (hp : s.ctl.pinHeld = false) (hl : s.LowestIdle l)
    (h₁ : 1 ≤ n) (h₂ : n ≤ 64) (he : s.eligible n = true) (h : s.FrameOver) :
    exec .grant s = .next (grantOn s.newFrame l) := by
  rw [exec_grant hd hp hl h₁ h₂ he, if_pos (frameEnds_iff.2 h)]

theorem exec_grant_of_not_frameOver (hd : s.ctl.dev = .service) (hp : s.ctl.pinHeld = false) (hl : s.LowestIdle l)
    (h₁ : 1 ≤ n) (h₂ : n ≤ 64) (he : s.eligible n = true) (h : ¬ s.FrameOver) :
    exec .grant s = .next (grantOn s l) := by
  rw [exec_grant hd hp hl h₁ h₂ he, if_neg (mt frameEnds_iff.1 h)]

theorem grantTo_eq {e : Entry} {later : List Entry} {x : Ctx} {p : Profile} (hq : (s.slot n).queue = e :: later)
    (hx : (s.slot n).ctx = some x) (hp : (s.slot n).profile = some p) :
    s.grantTo l n = { s with
      slots := (s.setSlot n { s.slot n with budget := (s.slot n).budget - 1 }).slots
      sched := { s.sched with grantCount := s.sched.grantCount + 1 }
      lanes := (s.setLane l ⟨.working, some ⟨n, e, e.bytes, p, x, false, none⟩⟩).lanes } := by
  simp only [State.grantTo, hq, hx, hp]
  rfl

/-- Settles O41: the search in the settled frame finds the stream, and a frame just begun is not over, so that the look
goes on in it as it would in the state that already stands there. -/
theorem grantsFollowTheFrames : Obligations.GrantsFollowTheFrames := by
  refine ⟨fun s l n e later x p hd hp hl ha ha' hover h₁ h₂ he hb hfirst hq hx hprof => ?_,
    fun s l n hd hp hl hover h₁ h₂ he => ?_⟩
  · rw [exec_grant_of_not_frameOver hd hp hl h₁ h₂ he hover,
      grantOn_of_chosen (chosen_eq ha ha' h₁ h₂ he hb hfirst), grantTo_eq hq hx hprof]
    cases e <;> rfl
  · rw [exec_grant_of_frameOver hd hp hl h₁ h₂ he hover]
    exact (exec_grant_of_not_frameOver (s := s.newFrame) hd hp hl h₁ h₂ (eligible_newFrame.trans he)
      not_frameOver_newFrame).symm

end Sys2Proof.LaneScheduling

/-! PROOFS. DURABLE and LOST of a container (chapter 5): each is refused, held for its notice's room, or answered in a
state written out (`durableAnswered`, `lostAnswered`), from which the marks settle; and where one sealed mark waits
for the container alone, that mark alone completes. -/

namespace Sys2Proof.ContainerPlacement

open Machine BranchStreams

variable {s : State} {r : Request} {rest : List Request} {k c g n : Nat}

/-! ## Room, marks and dependency sets -/

theorem hasRoom_iff : s.hasRoom = true ↔ s.link.notices.length < 128 := by simp [hasRoom_eq]

theorem hasRoom_eq_false : s.hasRoom = false ↔ 128 ≤ s.link.notices.length := by simp [hasRoom_eq]

/-- A change of every slot lists the same slots. -/
theorem slotNumbers_mapSlots (f : Slot → Slot) : (s.mapSlots f).slotNumbers = s.slotNumbers := by
  simp [State.slotNumbers, State.mapSlots]

theorem slot_dropFromSets : (s.dropFromSets c).slot n = (s.slot n).mapSpans (Span.dropDep c) :=
  State.slot_mapSlots s _ (Slot.mapSpans_free _) n

theorem slot_taintSets : (s.taintSets c).slot n = (s.slot n).mapSpans (Span.taintDep c) :=
  State.slot_mapSlots s _ (Slot.mapSpans_free _) n

theorem holds_dropDep (sp : Span) : (sp.dropDep c).holds c = false := by
  unfold Span.dropDep
  split
  · simp [Span.holds]
  · next h => simpa using h

/-- R90: no span of the slot holds a container that has left its sets. -/
theorem spansHolding_dropped (sl : Slot) : (sl.mapSpans (Span.dropDep c)).spansHolding c = 0 := by
  cases hc : sl.current <;> cases he : sl.ended <;> simp [Slot.spansHolding, Slot.mapSpans, hc, he, holds_dropDep]

theorem spansHolding_dropFromSets : (s.dropFromSets c).spansHolding c = 0 := by
  rw [State.spansHolding, State.dropFromSets, State.mapSlots, List.map_map]
  exact List.sum_eq_zero fun x hx => by
    obtain ⟨p, -, rfl⟩ := List.mem_map.1 hx
    exact spansHolding_dropped p.2

/-- Where the mark of stream `n` alone can settle, the marks of all streams settle as that one does. -/
theorem checkMarks_of_single (others : ∀ m, m ≠ n → (s.slot m).mark.phase ≠ .sealing)
    (after : ∀ m, ((s.checkMark n).slot m).mark.phase ≠ .sealing) {ns : List Nat} (hn : n ∈ ns) :
    s.checkMarks ns = s.checkMark n := by
  induction ns with
  | nil => cases hn
  | cons m ns ih =>
    by_cases hm : m = n
    · subst hm
      exact checkMarks_eq_self after ns
    · rw [State.checkMarks, checkMark_eq_self (others m hm)]
      exact ih ((List.mem_cons.1 hn).resolve_left (Ne.symm hm))

/-! ## DURABLE -/

/-- R90: the state once DURABLE has been answered, before the marks are looked at. -/
def durableAnswered (s : State) (r : Request) (c : Nat) : State :=
  ((s.makeDurable c).dropFromSets c).answer r .done
    (.durable (if (s.container c).entries = 0 then .reclaimable else .durable) (s.spansHolding c))

theorem takeDurable_refused (hq : s.link.requests = r :: rest)
    (h : s.ctl.dev ≠ .service ∨ (s.container (field r.payload 0 2)).state ≠ .full) :
    takeDurable r s = { s with link := s.replied r rest (.refused .badState) .none } := by
  rw [← refuse_eq hq]
  unfold takeDurable
  by_cases hd : s.ctl.dev = .service
  · simp [hd, h.resolve_left (not_not.2 hd)]
  · simp [hd]

theorem takeDurable_held (hd : s.ctl.dev = .service) (hf : (s.container (field r.payload 0 2)).state = .full)
    (he : (s.container (field r.payload 0 2)).entries = 0) (hn : 128 ≤ s.link.notices.length) :
    takeDurable r s = s.holdPlace .request := by
  simp [takeDurable, hd, hf, he, hasRoom_eq_false.2 hn]

theorem slotNumbers_durableAnswered : (durableAnswered s r c).slotNumbers = s.slotNumbers := by
  have h : (s.makeDurable c).slotNumbers = s.slotNumbers := by
    unfold State.makeDurable
    dsimp only
    split <;> rfl
  exact (slotNumbers_mapSlots (s := s.makeDurable c) fun sl => sl.mapSpans (Span.dropDep c)).trans h

theorem takeDurable_taken (hd : s.ctl.dev = .service) (hf : (s.container (field r.payload 0 2)).state = .full)
    (hr : (s.container (field r.payload 0 2)).entries ≠ 0 ∨ s.link.notices.length < 128) :
    takeDurable r s = (durableAnswered s r (field r.payload 0 2)).checkMarks
      (durableAnswered s r (field r.payload 0 2)).slotNumbers := by
  have hh : ¬ ((s.container (field r.payload 0 2)).entries = 0 ∧ s.hasRoom = false) := fun ⟨he, hn⟩ =>
    hr.elim (· he) (Nat.not_lt.2 (hasRoom_eq_false.1 hn))
  rw [slotNumbers_durableAnswered]
  simp only [takeDurable, hd, hf, hh, ne_eq, not_true_eq_false, if_false]
  rfl

/-- R90: with entries the container stays DURABLE. -/
theorem durableAnswered_kept (hq : s.link.requests = r :: rest) (he : (s.container c).entries ≠ 0) :
    durableAnswered s r c = { s with
      slots := s.slots.map (fun p => (p.1, p.2.mapSpans (Span.dropDep c)))
      place := { (s.setContainer c { s.container c with state := .durable }).place with nFull := s.place.nFull - 1 }
      link := s.replied r rest .done (.durable .durable (s.spansHolding c)) } := by
  rw [durableAnswered, makeDurable_kept _ _ he, answer_eq (rest := rest) (by exact hq), if_neg he]
  rfl

/-- R90, R91: without entries it goes on to RECLAIMABLE. -/
theorem durableAnswered_reclaimed (hq : s.link.requests = r :: rest) (he : (s.container c).entries = 0) :
    durableAnswered s r c = { s with
      slots := s.slots.map (fun p => (p.1, p.2.mapSpans (Span.dropDep c)))
      place := { (s.setContainer c { s.container c with state := .reclaimable }).place with
        nFull := s.place.nFull - 1, nReclaimable := s.place.nReclaimable + 1 }
      link := { s.replied r rest .done (.durable .reclaimable (s.spansHolding c)) with
        notices := s.link.notices ++
          [.containerReclaimable c ((s.container c).group.getD 0) (s.container c).fill] } } := by
  rw [durableAnswered, makeDurable_reclaimed _ _ he, answer_eq (rest := rest) (by exact hq), if_pos he]
  rfl

/-- R90: where no mark is sealed, none settles, and no set holds the container any longer. -/
theorem spansHolding_takeDurable (hd : s.ctl.dev = .service) (hq : s.link.requests = r :: rest)
    (hf : (s.container (field r.payload 0 2)).state = .full)
    (he : (s.container (field r.payload 0 2)).entries ≠ 0) (hm : ∀ n, (s.slot n).mark.phase ≠ .sealing) :
    (takeDurable r s).spansHolding (field r.payload 0 2) = 0 := by
  have h := durableAnswered_kept hq he
  rw [takeDurable_taken hd hf (.inl he), checkMarks_eq_self]
  · rw [h]
    exact spansHolding_dropFromSets (s := s)
  · intro n
    have hs : (durableAnswered s r (field r.payload 0 2)).slot n = (s.dropFromSets (field r.payload 0 2)).slot n := by
      rw [h]
      rfl
    rw [hs, slot_dropFromSets]
    exact hm n

/-- Settles O54: DURABLE is refused, held, or answered in one of the two states before the marks settle. -/
theorem durableTakesTheContainerOutOfEverySet : Obligations.DurableTakesTheContainerOutOfEverySet := by
  intro k s r rest h c v dropped s'
  have hx : exec (.durable k) s = .next (takeDurable r s') :=
    exec_of_takesNow (take := fun r s => takeDurable r (s.noteCorrected k)) rfl h
  have hq : s'.link.requests = r :: rest := h.1
  refine ⟨fun hb => ?_, fun hd hf => ⟨fun he => ?_, fun he hn => ?_, fun he hn => ?_⟩, dropDep_eq c,
    fun t ht hd hf he hm => ?_⟩
  · exact hx.trans (congrArg _ (takeDurable_refused hq hb))
  · refine ⟨_, hx.trans (congrArg _ (takeDurable_taken hd hf (.inl he))), ?_⟩
    have hu := checkMarks_thenSettles (durableAnswered s' r c)
    rwa [durableAnswered_kept hq he] at hu ⊢
  · refine ⟨_, hx.trans (congrArg _ (takeDurable_taken hd hf (.inr hn))), ?_⟩
    have hu := checkMarks_thenSettles (durableAnswered s' r c)
    rwa [durableAnswered_reclaimed hq he] at hu ⊢
  · exact hx.trans (congrArg _ (takeDurable_held hd hf he hn))
  · obtain rfl := Host.Outcome.next.inj (hx.symm.trans ht)
    exact spansHolding_takeDurable hd hq hf he hm

/-! ## LOST -/

/-- R93: the state once LOST has been answered, before the marks are looked at. -/
def lostAnswered (s : State) (r : Request) (c : Nat) : State :=
  ((s.makeLost c).taintSets c).answer r .done
    (.lost (if (s.container c).entries = 0 then .free else .lost) (s.spansHolding c))

theorem takeLost_refused (hq : s.link.requests = r :: rest)
    (h : s.ctl.dev ≠ .service ∨ (s.container (field r.payload 0 2)).state ≠ .full ∧
      (s.container (field r.payload 0 2)).state ≠ .durable) :
    takeLost r s = { s with link := s.replied r rest (.refused .badState) .none } := by
  rw [← refuse_eq hq]
  unfold takeLost
  by_cases hd : s.ctl.dev = .service
  · simp [hd, h.resolve_left (not_not.2 hd)]
  · simp [hd]

theorem takeLost_held (hd : s.ctl.dev = .service)
    (hf : (s.container (field r.payload 0 2)).state = .full ∨ (s.container (field r.payload 0 2)).state = .durable)
    (he : (s.container (field r.payload 0 2)).entries = 0) (hn : 128 ≤ s.link.notices.length) :
    takeLost r s = s.holdPlace .request := by
  have hf' : ¬ ((s.container (field r.payload 0 2)).state ≠ .full ∧
      (s.container (field r.payload 0 2)).state ≠ .durable) := by simpa [or_iff_not_imp_left] using hf
  simp only [takeLost, hd, hf', he, hasRoom_eq_false.2 hn, ne_eq, not_true_eq_false, if_false, and_self, if_true]

theorem slotNumbers_lostAnswered : (lostAnswered s r c).slotNumbers = s.slotNumbers := by
  have h : (s.makeLost c).slotNumbers = s.slotNumbers := by
    by_cases he : (s.container c).entries = 0
    · rw [makeLost_freed s c he]; rfl
    · rw [makeLost_kept s c he]; rfl
  exact (slotNumbers_mapSlots (s := s.makeLost c) fun sl => sl.mapSpans (Span.taintDep c)).trans h

theorem takeLost_taken (hd : s.ctl.dev = .service)
    (hf : (s.container (field r.payload 0 2)).state = .full ∨ (s.container (field r.payload 0 2)).state = .durable)
    (hr : (s.container (field r.payload 0 2)).entries ≠ 0 ∨ s.link.notices.length < 128) :
    takeLost r s = (lostAnswered s r (field r.payload 0 2)).checkMarks
      (lostAnswered s r (field r.payload 0 2)).slotNumbers := by
  have hf' : ¬ ((s.container (field r.payload 0 2)).state ≠ .full ∧
      (s.container (field r.payload 0 2)).state ≠ .durable) := by simpa [or_iff_not_imp_left] using hf
  have hh : ¬ ((s.container (field r.payload 0 2)).entries = 0 ∧ s.hasRoom = false) := fun ⟨he, hn⟩ =>
    hr.elim (· he) (Nat.not_lt.2 (hasRoom_eq_false.1 hn))
  rw [slotNumbers_lostAnswered]
  simp only [takeLost, hd, hf', hh, ne_eq, not_true_eq_false, if_false]
  rfl

/-- R93: with entries the container stays LOST, and the walker sweeps. -/
theorem lostAnswered_kept (hq : s.link.requests = r :: rest) (he : (s.container c).entries ≠ 0) :
    lostAnswered s r c = { s with
      slots := s.slots.map (fun p => (p.1, p.2.mapSpans (Span.taintDep c)))
      place := { (s.setContainer c { s.container c with state := .lost }).place with
        nFull := if (s.container c).state = .full then s.place.nFull - 1 else s.place.nFull
        nLost := s.place.nLost + 1 }
      walker := { s.walker with sweeping := true }
      link := s.replied r rest .done (.lost .lost (s.spansHolding c)) } := by
  rw [lostAnswered, makeLost_kept _ _ he, answer_eq (rest := rest) (by exact hq), if_neg he]
  rfl

/-- R69: a BLOCKED head becomes PENDING, and nothing else of the lookup queue changes. -/
theorem unblockHead_eq (qs : List QLookup) : unblockHead qs =
    match qs with
    | q :: later => (if q.state = .blocked then { q with state := .pending } else q) :: later
    | [] => [] := by
  cases qs <;> rfl

/-- R93, R94: without entries it becomes FREE at once. -/
theorem lostAnswered_freed (hq : s.link.requests = r :: rest) (he : (s.container c).entries = 0) :
    lostAnswered s r c = { s with
      slots := s.slots.map (fun p => (p.1, p.2.mapSpans (Span.taintDep c)))
      place := { (s.setContainer c ⟨.free, none, 0, 0, 0, 0⟩).place with
        freeList := s.place.freeList ++ [c]
        nFull := if (s.container c).state = .full then s.place.nFull - 1 else s.place.nFull }
      walker := { s.walker with
        sweeping :=
          match s.index.other with
          | some (.sweep _) => s.walker.sweeping
          | _ => if s.place.nLost = 0 then false else s.walker.sweeping }
      index := { s.index with
        lookups :=
          match s.index.lookups with
          | q :: later => (if q.state = .blocked then { q with state := .pending } else q) :: later
          | [] => [] }
      link := { s.replied r rest .done (.lost .free (s.spansHolding c)) with
        notices := s.link.notices ++ [.containerFreed c ((s.container c).group.getD 0)] } } := by
  rw [lostAnswered, makeLost_freed _ _ he, unblockHead_eq, answer_eq (rest := rest) (by exact hq), if_pos he]
  rfl

/-- R118: a live span that holds the container alone is left with an empty set, tainted. -/
theorem taintDep_single {sp : Span} (hr : sp.retired = false) (hd : sp.deps = [c]) :
    sp.taintDep c = { sp with deps := [], tainted := true, lostDeps := min 65535 (sp.lostDeps + 1) } := by
  simp [taintDep_eq, hr, hd]

/-- The slot of a mark that has completed, its report in the report slot. -/
def certified (sl : Slot) (n : Nat) (sp : Span) : Slot :=
  { sl with ended := none, mark := .none_, reportSlot := some (sl.completion n sp, 0) }

/-- R123, R124, R127: a sealed mark whose tainted span waits for nothing completes as TAINTED, which no monitor is
told of. -/
theorem checkMark_tainted {sp : Span} (hd : (s.slot n).SealDue sp) (he : sp.deps = []) (ht : sp.tainted = true)
    (hs : (s.slot n).reportSlot = none) (hn : s.link.notices.length < 128) :
    s.checkMark n = ((s.setSlot n { s.slot n with ended := none, mark := .none_ }).setSlot n
      (certified (s.slot n) n sp)).enter
        (.reportReady n ((s.slot n).branch.getD 0) ((s.slot n).mark.id.getD 0) .tainted) := by
  have ho : ((s.slot n).completion n sp).outcome = .tainted := by simp [Slot.completion, ht]
  obtain ⟨-, placed, -⟩ := checkMark_settled s n
  obtain ⟨-, -, entered⟩ := placed sp hd he
  have hslot : (s.setSlot n { s.slot n with ended := none, mark := .none_ }).slot n =
      { s.slot n with ended := none, mark := .none_ } := by rw [State.slot_setSlot, if_pos rfl]
  obtain ⟨told, -, -⟩ := entered (by exact (congrArg Slot.reportSlot hslot).trans hs) hn
  rw [told (by simp [ho]), ← ho, certified]
  simp only [State.enter, State.slot, State.setSlot, Link.noticed, tableGet_tableSet, if_true] at hslot ⊢
  rfl

theorem mem_slotNumbers (h : (s.slot n).mark.phase = .sealing) : n ∈ s.slotNumbers := by
  have hne : s.slot n ≠ Slot.free := fun e => by
    rw [e] at h
    cases h
  exact List.mem_map.2 ⟨_, mem_of_tableGet Slot.free s.slots n hne, rfl⟩

section kept

variable (hq : s.link.requests = r :: rest) (he : (s.container c).entries ≠ 0)
include hq he

theorem slot_lostAnswered : (lostAnswered s r c).slot n = (s.slot n).mapSpans (Span.taintDep c) := by
  rw [lostAnswered_kept hq he]
  exact slot_taintSets

theorem container_lostAnswered : (lostAnswered s r c).container c = { s.container c with state := .lost } := by
  rw [lostAnswered_kept hq he]
  simp only [State.container, State.setContainer, tableGet_tableSet, if_true]

theorem monitor_lostAnswered : (lostAnswered s r c).monitor = s.monitor := by
  rw [lostAnswered_kept hq he]

theorem requests_lostAnswered : (lostAnswered s r c).link.requests = rest := by
  rw [lostAnswered_kept hq he]
  rfl

theorem notices_lostAnswered : (lostAnswered s r c).link.notices = s.link.notices := by
  rw [lostAnswered_kept hq he]
  rfl

end kept

/-- R93, R123: the LOST of the one container that a sealed mark's span waits for, where no other mark is sealed. -/
theorem takeLost_completes {sp : Span} (hq : s.link.requests = r :: rest) (hd : s.ctl.dev = .service)
    (others : ∀ m, m ≠ n → (s.slot m).mark.phase ≠ .sealing)
    (hf : (s.container (field r.payload 0 2)).state = .full) (he : (s.container (field r.payload 0 2)).entries ≠ 0)
    (due : (s.slot n).SealDue sp) (hr : sp.retired = false) (hdeps : sp.deps = [field r.payload 0 2])
    (hs : (s.slot n).reportSlot = none) (hn : s.link.notices.length < 128) :
    let u := lostAnswered s r (field r.payload 0 2)
    let sl := (s.slot n).mapSpans (Span.taintDep (field r.payload 0 2))
    takeLost r s = ((u.setSlot n { sl with ended := none, mark := .none_ }).setSlot n
      (certified sl n { sp with deps := [], tainted := true, lostDeps := min 65535 (sp.lostDeps + 1) })).enter
        (.reportReady n (sl.branch.getD 0) (sl.mark.id.getD 0) .tainted) := by
  intro u sl
  obtain ⟨hp, hc, hended, ho⟩ := due
  have hslot : u.slot n = sl := slot_lostAnswered hq he
  have hothers : ∀ m, m ≠ n → (u.slot m).mark.phase ≠ .sealing := fun m hm => by
    rw [slot_lostAnswered hq he]
    exact others m hm
  have hend : sl.ended = some { sp with deps := [], tainted := true, lostDeps := min 65535 (sp.lostDeps + 1) } := by
    simp [sl, Slot.mapSpans, hended, taintDep_single hr hdeps]
  have hmark : u.checkMark n = _ := checkMark_tainted (s := u) (n := n)
    (sp := { sp with deps := [], tainted := true, lostDeps := min 65535 (sp.lostDeps + 1) })
    (by rw [hslot]; exact ⟨hp, hc, hend, ho⟩) rfl rfl (by rw [hslot]; exact hs)
    (by rw [notices_lostAnswered hq he]; exact hn)
  rw [takeLost_taken hd (.inl hf) (.inl he), checkMarks_of_single (n := n) hothers, hmark, hslot]
  · intro m
    rw [hmark, hslot, State.enter_slot, State.slot_setSlot, State.slot_setSlot]
    split
    · simp [certified, Mark.none_]
    · exact hothers m ‹_›
  · exact mem_slotNumbers (by rw [hslot]; exact hp)

/-- Settles O56: LOST is refused, held, or answered in one of the two states before the marks settle; and where one
sealed mark waits for the container alone, that mark alone settles. -/
theorem lostTaintsItsSpans : Obligations.LostTaintsItsSpans := by
  refine ⟨fun k s r rest h => ?_, fun k s r rest n id sp h hd others hf he hp hc hid hended hr ho hdeps hs hn => ?_⟩
  · intro c v tainted s' nFull
    have hx : exec (.lost k) s = .next (takeLost r s') :=
      exec_of_takesNow (take := fun r s => takeLost r (s.noteCorrected k)) rfl h
    have hq : s'.link.requests = r :: rest := h.1
    refine ⟨fun hb => ?_, fun hd hf => ⟨fun he => ?_, fun he hn => ?_, fun he hn => ?_⟩, taintDep_eq c⟩
    · exact hx.trans (congrArg _ (takeLost_refused hq hb))
    · refine ⟨_, hx.trans (congrArg _ (takeLost_taken hd hf (.inl he))), ?_⟩
      have hu := checkMarks_thenSettles (lostAnswered s' r c)
      rwa [lostAnswered_kept hq he] at hu ⊢
    · refine ⟨_, hx.trans (congrArg _ (takeLost_taken hd hf (.inr hn))), ?_⟩
      have hu := checkMarks_thenSettles (lostAnswered s' r c)
      rwa [lostAnswered_freed hq he] at hu ⊢
    · exact hx.trans (congrArg _ (takeLost_held hd hf he hn))
  · have hx : exec (.lost k) s = .next (takeLost r (s.noteCorrected k)) :=
      exec_of_takesNow (take := fun r s => takeLost r (s.noteCorrected k)) rfl h
    have ht := takeLost_completes (s := s.noteCorrected k) h.1 hd others hf he ⟨hp, hc, hended, ho⟩ hr hdeps hs hn
    refine ⟨_, ((s.slot n).mapSpans (Span.taintDep (field r.payload 0 2))).completion n
      { sp with deps := [], tainted := true, lostDeps := min 65535 (sp.lostDeps + 1) },
      hx.trans (congrArg _ ht), ?_⟩
    have hq : (s.noteCorrected k).link.requests = r :: rest := h.1
    simp only [State.enter_slot, State.slot_setSlot, State.enter_container, State.setSlot_container,
      State.enter_monitor,
      State.setSlot_monitor, State.enter_link, State.setSlot_link, container_lostAnswered hq he,
      monitor_lostAnswered hq he, notices_lostAnswered hq he, if_true]
    have hm : ((s.slot n).mapSpans (Span.taintDep (field r.payload 0 2))).mark.id = some id := hid
    simp only [State.noteCorrected_slot, hm, Option.getD_some]
    exact ⟨rfl, rfl, rfl, rfl, congrArg (Option.getD · 0) hm, rfl, rfl, rfl, rfl, ho, rfl, rfl, rfl, rfl,
      requests_lostAnswered hq he, rfl⟩

end Sys2Proof.ContainerPlacement

/-! PROOFS. The sweep walker's operation (chapter 5). The containers that a list of removals frees, and the order in
which it frees them, are functions of the entry counts (`freedBy`, `containerAfter`); `Swept` says what the removals
make of a state, one removal (`removeEntry_swept`) and then others (`swept_cons`); and the operation makes the
removals of the entries of LOST containers (`sweepEntries_swept`). -/

namespace Sys2Proof.SweepWalker

open Machine BranchStreams ContainerPlacement

variable {s t u : State} {b c : Nat} {e : IndexEntry} {i : Bool} {n : Nat → Nat} {es : List IndexEntry}
  {p : IndexEntry × Bool} {gone : List (IndexEntry × Bool)}

/-! ## The containers that removals free -/

/-- R99: the entries that name a container. -/
def naming (c : Nat) (es : List IndexEntry) : List IndexEntry := es.filter (fun e => e.container == c)

/-- R79, R94: the containers that the removal of the entries leaves without any, each where the last of its entries
stands; `n` gives the containers' entry counts. -/
def freedBy (n : Nat → Nat) (es : List IndexEntry) : List Nat :=
  ((es.map IndexEntry.container).dedup).filter (fun c => decide ((naming c es).length = n c))

/-- R79: the containers' entry counts. -/
def entryCounts (s : State) (c : Nat) : Nat := (s.container c).entries

/-- R79, R94: a container once the entries have been removed. -/
def containerAfter (s : State) (es : List IndexEntry) (c : Nat) : Container :=
  if c ∈ freedBy (entryCounts s) es then ⟨.free, none, 0, 0, 0, 0⟩
  else { s.container c with
    entries := (s.container c).entries - (naming c es).length
    live := (s.container c).live - ((naming c es).map IndexEntry.length).sum }

theorem naming_cons : naming c (e :: es) = naming c [e] ++ naming c es := List.filter_append [e] es

theorem length_naming_cons : (naming c (e :: es)).length = (naming c [e]).length + (naming c es).length := by
  rw [naming_cons, List.length_append]

theorem length_naming_self : (naming e.container [e]).length = 1 := by simp [naming]

theorem naming_single_of_ne (h : e.container ≠ c) : naming c [e] = [] := by simp [naming, h]

theorem naming_eq_nil : naming c es = [] ↔ c ∉ es.map IndexEntry.container := by
  simp [naming, List.filter_eq_nil_iff]

theorem mem_freedBy : c ∈ freedBy n es ↔ c ∈ es.map IndexEntry.container ∧ (naming c es).length = n c := by
  simp only [freedBy, List.mem_filter, List.mem_dedup, decide_eq_true_eq]

theorem freedBy_single : freedBy n [e] = if n e.container = 1 then [e.container] else [] := by
  simp only [freedBy, List.map_cons, List.map_nil, List.dedup_cons_of_notMem List.not_mem_nil, List.dedup_nil,
    List.filter_cons, List.filter_nil, length_naming_self, decide_eq_true_eq, eq_comm (a := 1)]

theorem mem_freedBy_single : c ∈ freedBy n [e] ↔ c = e.container ∧ n c = 1 := by
  rw [freedBy_single]
  split <;> grind

/-- A container named again later is not yet without entries. -/
theorem not_mem_freedBy_single (bound : ∀ c, (naming c (e :: es)).length ≤ n c)
    (h : c ∈ es.map IndexEntry.container) : c ∉ freedBy n [e] := by
  rw [mem_freedBy_single]
  rintro ⟨rfl, h1⟩
  have hpos : naming e.container es ≠ [] := fun h0 => naming_eq_nil.1 h0 h
  have := bound e.container
  rw [length_naming_cons, length_naming_self, h1] at this
  have := List.length_pos_iff.2 hpos
  omega

/-- One removal after another: each container is freed as the last entry that names it goes. -/
theorem freedBy_cons (bound : ∀ c, (naming c (e :: es)).length ≤ n c) :
    freedBy n (e :: es) = freedBy n [e] ++ freedBy (fun c => n c - (naming c [e]).length) es := by
  have later : (es.map IndexEntry.container).dedup.filter (fun c => decide ((naming c (e :: es)).length = n c)) =
      freedBy (fun c => n c - (naming c [e]).length) es :=
    List.filter_congr fun c _ => by
      have := bound c
      rw [length_naming_cons] at this ⊢
      show decide (_ = n c) = decide ((naming c es).length = n c - (naming c [e]).length)
      exact decide_eq_decide.2 (by omega)
  by_cases hm : e.container ∈ es.map IndexEntry.container
  · have h1 : freedBy n [e] = [] := by
      rw [freedBy_single, if_neg]
      exact fun h => not_mem_freedBy_single bound hm (mem_freedBy_single.2 ⟨rfl, h⟩)
    rw [h1, List.nil_append, ← later, freedBy, List.map_cons, List.dedup_cons_of_mem hm]
  · have h1 : (naming e.container (e :: es)).length = 1 := by
      rw [length_naming_cons, length_naming_self, naming_eq_nil.2 hm, List.length_nil]
    rw [freedBy, List.map_cons, List.dedup_cons_of_notMem hm, List.filter_cons, later, freedBy_single, h1]
    simp only [eq_comm (a := 1), decide_eq_true_eq]
    split <;> rfl

/-- The entry counts fall by the entries removed, to 0 for a container that is freed. -/
theorem entries_containerAfter : (containerAfter s es c).entries = entryCounts s c - (naming c es).length := by
  unfold containerAfter
  split
  · next h => simp [(mem_freedBy.1 h).2]
  · rfl

/-- The counts that one removal leaves. -/
theorem entryCounts_of_removal (h : ∀ c, u.container c = containerAfter s [e] c) :
    entryCounts u = fun c => entryCounts s c - (naming c [e]).length :=
  funext fun c => (congrArg Container.entries (h c)).trans entries_containerAfter

/-- R79: one removal after another leaves every container as all of them together do. -/
theorem containerAfter_cons (h : ∀ c, u.container c = containerAfter s [e] c)
    (bound : ∀ c, (naming c (e :: es)).length ≤ entryCounts s c) :
    containerAfter u es c = containerAfter s (e :: es) c := by
  have hmem : c ∈ freedBy (entryCounts s) (e :: es) ↔
      c ∈ freedBy (entryCounts s) [e] ∨ c ∈ freedBy (entryCounts u) es := by
    rw [freedBy_cons bound, List.mem_append, entryCounts_of_removal h]
  by_cases hfirst : c ∈ freedBy (entryCounts s) [e]
  · have hnot : c ∉ es.map IndexEntry.container := fun hc => not_mem_freedBy_single bound hc hfirst
    have hlater : c ∉ freedBy (entryCounts u) es := fun hc => hnot (mem_freedBy.1 hc).1
    rw [containerAfter, containerAfter, if_neg hlater, if_pos (hmem.2 (.inl hfirst)), h, containerAfter,
      if_pos hfirst, naming_eq_nil.2 hnot]
    rfl
  · by_cases hlater : c ∈ freedBy (entryCounts u) es
    · rw [containerAfter, containerAfter, if_pos hlater, if_pos (hmem.2 (.inr hlater))]
    · have hnone : c ∉ freedBy (entryCounts s) (e :: es) := fun hc => (hmem.1 hc).elim hfirst hlater
      rw [containerAfter, containerAfter, if_neg hlater, if_neg hnone, h, containerAfter, if_neg hfirst,
        naming_cons (e := e) (es := es)]
      simp only [List.length_append, List.map_append, List.sum_append, Nat.sub_sub]

/-- The group of a container that a later removal frees is the one it had. -/
theorem group_of_freed_later (h : ∀ c, u.container c = containerAfter s [e] c)
    (bound : ∀ c, (naming c (e :: es)).length ≤ entryCounts s c) (hc : c ∈ freedBy (entryCounts u) es) :
    (u.container c).group = (s.container c).group := by
  rw [h, containerAfter, if_neg (not_mem_freedBy_single bound (mem_freedBy.1 hc).1)]

/-! ## Entries removed -/

/-- R99: the entries of a list of removals that stand in the bucket. -/
def ofBucket (gone : List (IndexEntry × Bool)) : List IndexEntry := (gone.filter (fun p => !p.2)).map Prod.fst

/-- R99: and those of the spill table. -/
def ofSpill (gone : List (IndexEntry × Bool)) : List IndexEntry := (gone.filter (fun p => p.2)).map Prod.fst

/-- R94: the notice of a freed container. -/
def freedNotice (s : State) (c : Nat) : Notice := .containerFreed c ((s.container c).group.getD 0)

/-- R57, R59, R79, R94: what the removal of entries of bucket `b`, all of LOST containers, one after another makes of a
state while a sweep operation is in progress. -/
structure Swept (b : Nat) (s : State) (gone : List (IndexEntry × Bool)) (t : State) : Prop where
  bucket : t.bucket b = ⟨(s.bucket b).entries.diff (ofBucket gone), (s.bucket b).spill - (ofSpill gone).length⟩
  buckets : ∀ x, x ≠ b → t.bucket x = s.bucket x
  spill : t.index.spill =
    s.index.spill.filter (fun p => decide (p.1 ∉ (ofSpill gone).map (fun e => spillKey e.fp e.length)))
  entryCount : t.index.entryCount = s.index.entryCount - gone.length
  spillCount : t.index.spillCount = s.index.spillCount - (ofSpill gone).length
  containers : ∀ c, t.container c = containerAfter s (gone.map Prod.fst) c
  freeList : t.place.freeList = s.place.freeList ++ freedBy (entryCounts s) (gone.map Prod.fst)
  nLost : t.place.nLost = s.place.nLost - (freedBy (entryCounts s) (gone.map Prod.fst)).length
  notices : t.link.notices =
    s.link.notices ++ (freedBy (entryCounts s) (gone.map Prod.fst)).map (freedNotice s)
  other : t.index.other = s.index.other
  inflight : t.index.inflight = s.index.inflight
  walker : t.walker = s.walker
  slots : t.slots = s.slots
  lanes : t.lanes = s.lanes
  monitor : t.monitor = s.monitor
  held : t.place.held = s.place.held

theorem containerAfter_nil : containerAfter s [] c = s.container c := by
  simp [containerAfter, mem_freedBy, naming]

theorem swept_nil : Swept b s [] s where
  bucket := rfl
  buckets := fun _ _ => rfl
  spill := by simp [ofSpill]
  entryCount := rfl
  spillCount := rfl
  containers := fun c => containerAfter_nil.symm
  freeList := by simp [freedBy]
  nLost := rfl
  notices := by simp [freedBy]
  other := rfl
  inflight := rfl
  walker := rfl
  slots := rfl
  lanes := rfl
  monitor := rfl
  held := rfl

theorem ofBucket_append (a d : List (IndexEntry × Bool)) : ofBucket (a ++ d) = ofBucket a ++ ofBucket d := by
  simp only [ofBucket, List.filter_append, List.map_append]

theorem ofSpill_append (a d : List (IndexEntry × Bool)) : ofSpill (a ++ d) = ofSpill a ++ ofSpill d := by
  simp only [ofSpill, List.filter_append, List.map_append]

/-- One removal, and then others. -/
theorem swept_cons (h1 : Swept b s [p] u) (h2 : Swept b u gone t)
    (bound : ∀ c, (naming c (p.1 :: gone.map Prod.fst)).length ≤ entryCounts s c) : Swept b s (p :: gone) t := by
  have hc : ∀ c, u.container c = containerAfter s [p.1] c := h1.containers
  have hfreed : freedBy (entryCounts s) (([p] ++ gone).map Prod.fst) =
      freedBy (entryCounts s) ([p].map Prod.fst) ++ freedBy (entryCounts u) (gone.map Prod.fst) :=
    (freedBy_cons bound).trans (by rw [entryCounts_of_removal hc]; rfl)
  rw [← List.singleton_append]
  exact
    { bucket := by
        rw [h2.bucket, h1.bucket, ofBucket_append, ofSpill_append, List.diff_append, List.length_append, Nat.sub_sub]
      buckets := fun x hx => (h2.buckets x hx).trans (h1.buckets x hx)
      spill := by
        rw [h2.spill, h1.spill, ofSpill_append, List.filter_filter]
        refine List.filter_congr fun q _ => ?_
        rw [← Bool.decide_and]
        exact decide_eq_decide.2 (by simp [not_or, and_comm])
      entryCount := by rw [h2.entryCount, h1.entryCount, List.length_append, Nat.sub_sub]
      spillCount := by rw [h2.spillCount, h1.spillCount, ofSpill_append, List.length_append, Nat.sub_sub]
      containers := fun c => (h2.containers c).trans (containerAfter_cons hc bound)
      freeList := by rw [h2.freeList, h1.freeList, hfreed, List.append_assoc]
      nLost := by rw [h2.nLost, h1.nLost, hfreed, List.length_append, Nat.sub_sub]
      notices := by
        rw [h2.notices, h1.notices, hfreed, List.map_append, List.append_assoc]
        congr 2
        refine List.map_congr_left fun c hm => ?_
        rw [freedNotice, freedNotice, group_of_freed_later hc bound hm]
      other := h2.other.trans h1.other
      inflight := h2.inflight.trans h1.inflight
      walker := h2.walker.trans h1.walker
      slots := h2.slots.trans h1.slots
      lanes := h2.lanes.trans h1.lanes
      monitor := h2.monitor.trans h1.monitor
      held := h2.held.trans h1.held }

/-! ## One removal -/

/-- R100: the walker stays as it is while a sweep operation is in progress. -/
theorem restWalker_of_sweep (ho : s.index.other = some (.sweep b)) : s.restWalker = s := by
  simp only [State.restWalker, ho]

theorem freeLost_of_sweep (ho : s.index.other = some (.sweep b)) :
    s.freeLost c = { s with
      place := { (s.setContainer c .free).place with
        freeList := s.place.freeList ++ [c], nLost := s.place.nLost - 1 }
      index := { s.index with lookups := unblockHead s.index.lookups }
      link := s.link.noticed (freedNotice s c) } := by
  rw [State.freeLost, restWalker_of_sweep (b := b) (by exact ho)]
  rfl

/-- R94: of a container that is freed only the group shows, in the notice. -/
theorem freeLost_setContainer {v : Container} (hv : v.state ≠ .free) (hg : v.group = (s.container c).group)
    (ho : s.index.other = some (.sweep b)) : (s.setContainer c v).freeLost c = s.freeLost c := by
  have hnote : freedNotice (s.setContainer c v) c = freedNotice s c := by
    rw [freedNotice, freedNotice, State.container_setContainer, if_pos rfl, hg]
  rw [freeLost_of_sweep ho, freeLost_of_sweep (b := b) (by exact ho), hnote,
    setContainer_setContainer _ _ _ (Container.ne_free hv)]
  rfl

/-- R94: the removal of a LOST container's last entry frees it. -/
theorem account_last (len : Nat) (hl : (s.container c).state = .lost) (h1 : (s.container c).entries = 1)
    (ho : s.index.other = some (.sweep b)) : s.account c len = s.freeLost c := by
  simp only [State.account, h1, Nat.sub_self, if_true, hl]
  exact freeLost_setContainer (by simp) rfl ho

/-- R79, R94: the accounting of one removal from a LOST container. -/
theorem account_lost (hl : (s.container e.container).state = .lost) (hn : 1 ≤ (s.container e.container).entries)
    (ho : s.index.other = some (.sweep b)) :
    ∃ lookups containers, s.account e.container e.length = { s with
        place := { s.place with
          containers := containers
          freeList := s.place.freeList ++ freedBy (entryCounts s) [e]
          nLost := s.place.nLost - (freedBy (entryCounts s) [e]).length }
        index := { s.index with lookups := lookups }
        link := { s.link with notices := s.link.notices ++ (freedBy (entryCounts s) [e]).map (freedNotice s) } } ∧
      ∀ c, tableGet Container.free containers c = containerAfter s [e] c := by
  by_cases h1 : (s.container e.container).entries = 1
  · have hf : freedBy (entryCounts s) [e] = [e.container] := by rw [freedBy_single]; exact if_pos h1
    refine ⟨_, _, by rw [account_last e.length hl h1 ho, freeLost_of_sweep ho, hf]; rfl, fun c => ?_⟩
    rw [State.setContainer_place, tableGet_tableSet, containerAfter, hf]
    by_cases hc : c = e.container
    · simp [hc, Container.free]
    · simp [hc, naming_single_of_ne (Ne.symm hc), State.container]
  · have hf : freedBy (entryCounts s) [e] = [] := by rw [freedBy_single]; exact if_neg h1
    refine ⟨s.index.lookups, _, by rw [account_of_more s _ e.length (by omega), hf]; simp; rfl, fun c => ?_⟩
    rw [tableGet_tableSet, containerAfter, hf]
    by_cases hc : c = e.container
    · subst hc
      simp [naming]
    · simp [hc, naming_single_of_ne (Ne.symm hc), State.container]

/-- R57: an entry's leaving, before the accounting: its bucket. -/
theorem bucket_entryGone (x : Nat) : (s.entryGone e i b).bucket x =
    if x = b then ⟨(s.bucket b).entries.diff (ofBucket [(e, i)]), (s.bucket b).spill - (ofSpill [(e, i)]).length⟩
    else s.bucket x := by
  refine (State.bucket_setBucket s b _ x).trans ?_
  cases i <;> simp [ofBucket, ofSpill]

/-- R57, R54: and the spill table. -/
theorem spill_entryGone : (s.entryGone e i b).index.spill =
    s.index.spill.filter (fun p => decide (p.1 ∉ (ofSpill [(e, i)]).map (fun e => spillKey e.fp e.length))) := by
  cases i
  · exact (List.filter_eq_self.2 fun _ _ => rfl).symm
  · exact List.filter_congr fun p _ => decide_eq_decide.2 (by simp [ofSpill])

/-- R57, R59, R79, R94: one removal. -/
theorem removeEntry_swept (hl : (s.container e.container).state = .lost)
    (hn : 1 ≤ (s.container e.container).entries) (ho : s.index.other = some (.sweep b)) :
    Swept b s [(e, i)] (s.removeEntry e i b) := by
  obtain ⟨lookups, containers, hr, hc⟩ := account_lost (s := s.entryGone e i b) (e := e) (b := b) hl hn ho
  rw [State.removeEntry, dropEntry_eq, hr]
  exact
    { bucket := (bucket_entryGone b).trans (if_pos rfl)
      buckets := fun x hx => (bucket_entryGone x).trans (if_neg hx)
      spill := spill_entryGone (b := b)
      entryCount := rfl
      spillCount := by cases i <;> rfl
      containers := hc
      freeList := rfl
      nLost := rfl
      notices := rfl
      other := rfl
      inflight := rfl
      walker := rfl
      slots := rfl
      lanes := rfl
      monitor := rfl
      held := rfl }

/-! ## The whole operation -/

/-- R99: an entry that a sweep removes. -/
def namesLost (s : State) (e : IndexEntry) : Bool := decide ((s.container e.container).state = .lost)

/-- R79: the list names no more entries of a container than its record counts. -/
def Counted (s : State) (es : List IndexEntry) : Prop := ∀ c, (naming c es).length ≤ entryCounts s c

theorem counted_tail (h : ∀ c, u.container c = containerAfter s [e] c) (bound : Counted s (e :: es)) :
    Counted u es := by
  intro c
  have := bound c
  rw [length_naming_cons] at this
  rw [entryCounts_of_removal h]
  show _ ≤ entryCounts s c - (naming c [e]).length
  omega

/-- R99: a removal leaves the containers of the entries behind it LOST, or not, as they were. -/
theorem namesLost_of_removal (h : ∀ c, u.container c = containerAfter s [e] c)
    (bound : Counted s (e :: es.filter (namesLost s))) (d : IndexEntry) (hd : d ∈ es) :
    namesLost u d = namesLost s d := by
  by_cases hf : d.container ∈ freedBy (entryCounts s) [e]
  · have hu : namesLost u d = false := by rw [namesLost, h, containerAfter, if_pos hf]; rfl
    rw [hu]
    by_contra hs
    have hmem : d ∈ es.filter (namesLost s) := List.mem_filter.2 ⟨hd, by simpa using Ne.symm hs⟩
    exact not_mem_freedBy_single bound (List.mem_map_of_mem hmem) hf
  · rw [namesLost, namesLost, h, containerAfter, if_neg hf]

/-- R94, R79: where the removal would make a notice, the container is freed by it. -/
theorem freedBy_of_removalNotice (hn : 1 ≤ (s.container e.container).entries)
    (h : s.removalNotice e.container = true) : freedBy (entryCounts s) [e] = [e.container] := by
  simp only [State.removalNotice, Bool.and_eq_true, beq_iff_eq] at h
  rw [freedBy_single]
  exact if_pos (show (s.container e.container).entries = 1 by omega)

/-- R99: with the placement unit free and room for every notice, the entries that name LOST containers are removed. -/
theorem sweepEntries_swept (es : List (IndexEntry × Bool)) (hh : s.place.held = none)
    (ho : s.index.other = some (.sweep b))
    (bound : Counted s ((es.map Prod.fst).filter (namesLost s)))
    (room : s.link.notices.length + (freedBy (entryCounts s) ((es.map Prod.fst).filter (namesLost s))).length ≤ 128) :
    ∃ t, s.sweepEntries b es = (t, true) ∧ Swept b s (es.filter (fun p => namesLost s p.1)) t := by
  induction es generalizing s with
  | nil => exact ⟨s, rfl, swept_nil⟩
  | cons p es ih =>
    obtain ⟨e, i⟩ := p
    by_cases hl : namesLost s e = true
    · rw [List.map_cons, List.filter_cons_of_pos hl] at bound room
      have hn : 1 ≤ (s.container e.container).entries := by
        have := bound e.container
        rw [length_naming_cons, length_naming_self] at this
        exact (Nat.le_add_right 1 _).trans this
      have hl' : (s.container e.container).state = .lost := by simpa [namesLost] using hl
      have step : Swept b s [(e, i)] (s.removeEntry e i b) := removeEntry_swept hl' hn ho
      have hc : ∀ c, (s.removeEntry e i b).container c = containerAfter s [e] c := step.containers
      have same : (es.map Prod.fst).filter (namesLost (s.removeEntry e i b)) =
          (es.map Prod.fst).filter (namesLost s) :=
        List.filter_congr (namesLost_of_removal hc bound)
      rw [freedBy_cons bound, ← entryCounts_of_removal hc, List.length_append] at room
      have enters : ¬ (s.removalNotice e.container && !s.hasRoom) = true := by
        simp only [Bool.and_eq_true, Bool.not_eq_true', hasRoom_eq_false, not_and, not_le]
        intro hm
        rw [freedBy_of_removalNotice hn hm, List.length_singleton] at room
        omega
      have notices : (s.removeEntry e i b).link.notices.length =
          s.link.notices.length + (freedBy (entryCounts s) [e]).length := by
        rw [step.notices, List.length_append, List.length_map]
        rfl
      obtain ⟨t, ht, rest⟩ := ih (s := s.removeEntry e i b) (step.held.trans hh) (step.other.trans ho)
        (by rw [same]; exact counted_tail hc bound) (by rw [same, notices]; omega)
      refine ⟨t, ?_, ?_⟩
      · rw [State.sweepEntries, if_pos hl', if_neg (by simp [hh]), if_neg enters, ht]
      · rw [List.filter_cons_of_pos (by exact hl)]
        have hrest : es.filter (fun p => namesLost (s.removeEntry e i b) p.1) =
            es.filter (fun p => namesLost s p.1) :=
          List.filter_congr fun p hp => namesLost_of_removal hc bound p.1 (List.mem_map_of_mem hp)
        rw [hrest] at rest
        refine swept_cons step rest fun c => ?_
        have := bound c
        rwa [List.filter_map] at this
    · have hl' : ¬ (s.container e.container).state = .lost := by simpa [namesLost] using hl
      rw [List.map_cons, List.filter_cons_of_neg hl] at bound room
      rw [State.sweepEntries, if_neg hl', List.filter_cons_of_neg (by exact hl)]
      exact ih hh ho bound room

/-- R99, R100: the operation gives up its bucket, the position advances, and the walker rests if no container is
LOST. -/
theorem finishSweep_eq : s.finishSweep b = { s with
    index := { s.index with other := none, inflight := s.index.inflight.filter (fun x => x != b) }
    walker := ⟨if s.place.nLost = 0 then false else s.walker.sweeping, (s.walker.position + 1) % 4194304⟩ } := by
  by_cases h : s.place.nLost = 0
  · simp only [State.finishSweep, State.restWalker, State.leaveFlight, h, if_true]
  · simp only [State.finishSweep, State.restWalker, State.leaveFlight, h, if_false]

theorem sweepOp_of_swept (ho : s.index.other = some (.sweep b))
    (h : s.sweepEntries b (s.sweepList b) = (t, true)) : s.sweepOp = t.finishSweep b := by
  simp only [State.sweepOp, ho, h, if_true]

theorem exec_sweepOpDone {k : Nat} (hd : s.ctl.dev = .service) (hp : s.ctl.pinHeld = false)
    (hh : s.place.held = none) (ho : s.index.other = some (.sweep b)) :
    exec (.sweepOpDone k) s = .next (s.noteCorrected k).sweepOp := by
  simp only [exec, execSweepOpDone, ho, inService_iff.2 ⟨hd, hp⟩, hh]
  rfl

/-- R99: the spill entries of the bucket that the operation examines. -/
def spilled (s : State) (b : Nat) (x : SpillEntry) : Bool := x.bucket == b && decide (0 < (s.bucket b).spill)

theorem spillOf_eq : s.spillOf b =
    ((s.index.spill.filterMap (fun p => p.2)).filter (fun x => x.bucket == b)).map SpillEntry.entry := by
  unfold State.spillOf
  induction s.index.spill with
  | nil => rfl
  | cons p l ih =>
    cases hp : p.2 with
    | none => simp [hp, ih]
    | some x => by_cases hx : x.bucket = b <;> simp [hp, hx, ih]

/-- R99: the entries of LOST containers among those the operation examines. -/
theorem sweepList_lost : (s.sweepList b).filter (fun p => namesLost s p.1) =
    ((s.bucket b).entries.filter (namesLost s)).map (fun e => (e, false)) ++
      ((s.index.spill.filterMap (fun p => p.2)).filter (fun x => spilled s b x && namesLost s x.entry)).map
        (fun x => (x.entry, true)) := by
  rw [State.sweepList, List.filter_append, List.filter_map]
  congr 1
  by_cases h : 0 < (s.bucket b).spill
  · rw [if_pos h, spillOf_eq, List.filter_map, List.filter_map, List.filter_filter, List.map_map]
    refine congrArg _ (List.filter_congr fun x _ => ?_)
    simp [spilled, h, Bool.and_comm]
  · have hs : ∀ x, spilled s b x = false := fun x => by simp [spilled, h]
    simp [h, hs]

theorem ofBucket_lists (inBucket : List IndexEntry) (inSpill : List SpillEntry) :
    ofBucket (inBucket.map (fun e => (e, false)) ++ inSpill.map (fun x => (x.entry, true))) = inBucket := by
  simp [ofBucket, List.filter_map, Function.comp_def]

theorem ofSpill_lists (inBucket : List IndexEntry) (inSpill : List SpillEntry) :
    ofSpill (inBucket.map (fun e => (e, false)) ++ inSpill.map (fun x => (x.entry, true))) =
      inSpill.map SpillEntry.entry := by
  simp [ofSpill, List.filter_map, Function.comp_def]

theorem map_fst_lists (inBucket : List IndexEntry) (inSpill : List SpillEntry) :
    (inBucket.map (fun e => (e, false)) ++ inSpill.map (fun x => (x.entry, true))).map Prod.fst =
      inBucket ++ inSpill.map SpillEntry.entry := by
  simp [Function.comp_def]

/-- Taking from a list, one after another, the members that pass a test leaves those that do not. -/
theorem diff_filter (f : IndexEntry → Bool) (l : List IndexEntry) : l.diff (l.filter f) = l.filter (fun e => !f e) := by
  induction l with
  | nil => rfl
  | cons e l ih =>
    by_cases h : f e = true
    · rw [List.filter_cons_of_pos h, List.diff_cons, List.erase_cons_head, ih, List.filter_cons_of_neg (by simp [h])]
    · rw [List.filter_cons_of_neg h, List.filter_cons_of_pos (by simpa using h), ← ih]
      exact List.cons_diff_of_not_mem (by simp [h]) l

/-- R54: a key of the spill table stands for one entry. -/
theorem spill_unique (hs : s.Canonical) {p q : Nat × Option SpillEntry} (hp : p ∈ s.index.spill)
    (hq : q ∈ s.index.spill) (h : p.1 = q.1) : p = q := by
  obtain ⟨-, -, -, hwf, -⟩ := hs
  have hnodup : (s.index.spill.map Prod.fst).Nodup :=
    List.pairwise_map.2 (((tableWf_iff _ _).1 hwf).1.imp Nat.ne_of_lt)
  exact List.inj_on_of_nodup_map hnodup hp hq h

/-- R54: every entry of the spill table stands under its own key. -/
theorem spill_key (hs : s.Canonical) {p : Nat × Option SpillEntry} {x : SpillEntry} (hp : p ∈ s.index.spill)
    (hx : p.2 = some x) : p.1 = spillKey x.entry.fp x.entry.length := by
  obtain ⟨-, -, -, -, -, -, -, hkeys⟩ := hs
  exact hkeys p hp x hx

/-- R54: the keys of the entries that pass a test are those under which they stand. -/
theorem spill_keys (hs : s.Canonical) (f : SpillEntry → Bool) :
    s.index.spill.filter (fun p => decide (p.1 ∉
      (((s.index.spill.filterMap (fun p => p.2)).filter f).map SpillEntry.entry).map
        (fun e => spillKey e.fp e.length))) =
      s.index.spill.filter (fun p => !p.2.any f) := by
  refine List.filter_congr fun p hp => ?_
  rw [decide_not]
  refine congrArg _ (Bool.eq_iff_iff.2 ?_)
  simp only [decide_eq_true_eq, List.mem_map, List.mem_filter, List.mem_filterMap, Option.any_eq_true]
  constructor
  · rintro ⟨_, ⟨x, ⟨⟨q, hq, hx⟩, hf⟩, rfl⟩, hkey⟩
    have hpq : q = p := spill_unique hs hq hp ((spill_key hs hq hx).trans hkey)
    exact ⟨x, hpq ▸ hx, hf⟩
  · rintro ⟨x, hx, hf⟩
    exact ⟨_, ⟨x, ⟨⟨p, hp, hx⟩, hf⟩, rfl⟩, (spill_key hs hp hx).symm⟩

/-- Settles O53: the entries are removed one after another, each with its container's accounting, and the operation
ends. -/
theorem sweepRemovesLostEntries : Obligations.SweepRemovesLostEntries := by
  intro k s hd hp hh hs b ho lost isSpilled inBucket inSpill gone of freed bound hn room
  have hgone : ((s.noteCorrected k).sweepList b).filter (fun p => namesLost (s.noteCorrected k) p.1) =
      inBucket.map (fun e => (e, false)) ++ inSpill.map (fun x => (x.entry, true)) := sweepList_lost
  have hfst : (((s.noteCorrected k).sweepList b).map Prod.fst).filter (namesLost (s.noteCorrected k)) = gone := by
    rw [List.filter_map]
    exact (congrArg (List.map Prod.fst) hgone).trans (map_fst_lists inBucket inSpill)
  have hcounted : Counted (s.noteCorrected k) gone := fun c => by
    by_cases hl : (s.container c).state = .lost
    · exact bound c hl
    · have hnone : naming c gone = [] := naming_eq_nil.2 fun hm => by
        obtain ⟨e, he, rfl⟩ := List.mem_map.1 hm
        rw [← hfst] at he
        exact hl (of_decide_eq_true (List.mem_filter.1 he).2)
      rw [hnone]
      exact Nat.zero_le _
  obtain ⟨t, ht, swept⟩ := sweepEntries_swept (s := s.noteCorrected k) ((s.noteCorrected k).sweepList b) hh ho
    (by rw [hfst]; exact hcounted) (by rw [hfst]; exact room)
  have hx : exec (.sweepOpDone k) s = .next (t.finishSweep b) := by
    rw [exec_sweepOpDone hd hp hh ho, sweepOp_of_swept (s := s.noteCorrected k) ho ht]
  rw [hgone] at swept
  have hfreed : freedBy (entryCounts (s.noteCorrected k)) (List.map Prod.fst
      (inBucket.map (fun e => (e, false)) ++ inSpill.map (fun x => (x.entry, true)))) = freed := by
    rw [map_fst_lists]
    rfl
  rw [finishSweep_eq] at hx
  refine ⟨_, hx, ?_, swept.buckets, ?_, ?_, ?_, fun c => ?_, ?_, ?_, ?_, rfl, ?_, ?_, swept.slots, swept.lanes,
    swept.monitor, swept.held.trans hh⟩
  · refine swept.bucket.trans ?_
    rw [ofBucket_lists, ofSpill_lists, List.length_map]
    exact congrArg (Bucket.mk · _) (diff_filter lost _)
  · refine swept.spill.trans ?_
    rw [ofSpill_lists]
    exact spill_keys hs fun x => isSpilled x && lost x.entry
  · refine swept.entryCount.trans ?_
    rw [← List.length_map (f := Prod.fst), map_fst_lists]
    rfl
  · refine swept.spillCount.trans ?_
    rw [ofSpill_lists, List.length_map]
    rfl
  · refine (swept.containers c).trans ?_
    rw [containerAfter, hfreed, map_fst_lists]
    rfl
  · exact swept.freeList.trans (by rw [hfreed]; rfl)
  · exact swept.nLost.trans (by rw [hfreed]; rfl)
  · exact swept.notices.trans (by rw [hfreed]; rfl)
  · exact congrArg (List.filter _) swept.inflight
  · have hlost : t.place.nLost = s.place.nLost - freed.length := swept.nLost.trans (by rw [hfreed]; rfl)
    have hzero : t.place.nLost = 0 ↔ s.place.nLost = freed.length := by omega
    simp only [swept.walker, hzero]
    rfl

end Sys2Proof.SweepWalker

/-! PROOFS. FREE, FLUSH, and what the placement unit holds (chapter 5). FREE and FLUSH have an equation per case; a
held event goes on as the command that would make it (`heldEvent_asIf`); and every command keeps a held request at the
head of the request queue: a request row, since no owner takes one meanwhile (`row_keeps`), most others, since they
leave aside what a hold rests on (`Rests`), and the rest, since no hold outlives them or none can stand before them
(`Kept`). -/

namespace Sys2Proof.HeldEvents

open Machine BranchStreams ContainerPlacement

variable {s t u : State} {r : Request} {rest : List Request} {k c g n b : Nat} {h : PlaceHold}

/-! ## FREE -/

theorem takeFree_refused (hq : s.link.requests = r :: rest)
    (h : s.ctl.dev ≠ .service ∨ (s.container (field r.payload 0 2)).state ≠ .reclaimable) :
    takeFree r s = { s with link := s.replied r rest (.refused .badState) .none } := by
  rw [← refuse_eq hq]
  unfold takeFree
  by_cases hd : s.ctl.dev = .service
  · simp [hd, h.resolve_left (not_not.2 hd)]
  · simp [hd]

/-- R92: a RECLAIMABLE container's record is cleared and its number joins the tail of the free list. -/
theorem takeFree_taken (hq : s.link.requests = r :: rest) (hd : s.ctl.dev = .service)
    (hf : (s.container (field r.payload 0 2)).state = .reclaimable) :
    takeFree r s = { s with
      place := { (s.setContainer (field r.payload 0 2) ⟨.free, none, 0, 0, 0, 0⟩).place with
        freeList := s.place.freeList ++ [field r.payload 0 2], nReclaimable := s.place.nReclaimable - 1 }
      index := { s.index with
        lookups :=
          match s.index.lookups with
          | q :: later => (if q.state = .blocked then { q with state := .pending } else q) :: later
          | [] => [] }
      link := s.replied r rest .done (.free (s.place.freeList.length + 1)) } := by
  simp only [takeFree, hd, hf, ne_eq, not_true_eq_false, if_false, freeContainer_eq]
  rw [answer_eq (rest := rest) (by exact hq), unblockHead_eq, List.length_append]
  rfl

/-! ## FLUSH -/

theorem takeFlush_badState (hq : s.link.requests = r :: rest) (hd : s.ctl.dev ≠ .service) :
    takeFlush r s = { s with link := s.replied r rest (.refused .badState) .none } := by
  rw [← refuse_eq hq]
  exact if_pos hd

section flush

variable (hd : s.ctl.dev = .service)
include hd

theorem takeFlush_range (hq : s.link.requests = r :: rest) (hg : 7 < field r.payload 0 1) :
    takeFlush r s = { s with link := s.replied r rest (.refused .range) .none } := by
  rw [← refuse_eq hq]
  exact (if_neg (not_not.2 hd)).trans (if_pos hg)

theorem takeFlush_noContainer (hq : s.link.requests = r :: rest) (hg : field r.payload 0 1 ≤ 7)
    (hp : s.openPlace (field r.payload 0 1) = none) :
    takeFlush r s = { s with link := s.replied r rest (.refused .noContainer) .none } := by
  have hg' : ¬ Config.groupCount ≤ field r.payload 0 1 := Nat.not_le.2 (Nat.lt_succ_of_le hg)
  simp only [takeFlush, hd, hg', hp, ne_eq, not_true_eq_false, if_false, refuse_eq hq]

theorem takeFlush_held (hg : field r.payload 0 1 ≤ 7) (hp : s.openPlace (field r.payload 0 1) = some c)
    (hn : 128 ≤ s.link.notices.length) : takeFlush r s = s.holdPlace .request := by
  have hg' : ¬ Config.groupCount ≤ field r.payload 0 1 := Nat.not_le.2 (Nat.lt_succ_of_le hg)
  simp only [takeFlush, hd, hg', hp, ne_eq, not_true_eq_false, if_false, hasRoom_eq_false.2 hn, Bool.false_eq_true]

/-- R86: the group's OPEN container is closed to FULL. -/
theorem takeFlush_closed (hq : s.link.requests = r :: rest) (hg : field r.payload 0 1 ≤ 7)
    (hp : s.openPlace (field r.payload 0 1) = some c) (hc : (s.container c).group = some (field r.payload 0 1))
    (hn : s.link.notices.length < 128) :
    takeFlush r s = { s with
      place := { ((s.setContainer c { s.container c with state := .full }).setOpenPlace
          (field r.payload 0 1) none).place with
        nFull := s.place.nFull + 1 }
      link := { s.replied r rest .done (.flush c (s.container c).fill (s.container c).entries) with
        notices := s.link.notices ++
          [.containerFull c (field r.payload 0 1) (s.container c).fill (s.container c).entries .flush] } } := by
  have hg' : ¬ Config.groupCount ≤ field r.payload 0 1 := Nat.not_le.2 (Nat.lt_succ_of_le hg)
  simp only [takeFlush, hd, hg', hp, ne_eq, not_true_eq_false, if_false, hasRoom_iff.2 hn, if_true]
  rw [closeToFull_eq s c _ .flush hc, answer_eq (rest := rest) (by exact hq)]
  rfl

end flush

theorem exec_free (h : s.TakesNow .free r rest) : exec (.free k) s = .next (takeFree r (s.noteCorrected k)) :=
  exec_of_takesNow (take := fun r s => takeFree r (s.noteCorrected k)) rfl h

theorem exec_flush (h : s.TakesNow .flush r rest) : exec (.flush k) s = .next (takeFlush r (s.noteCorrected k)) :=
  exec_of_takesNow (take := fun r s => takeFlush r (s.noteCorrected k)) rfl h

/-! ## Held events go on -/

theorem exec_heldContainerNoticeEntry (hd : s.ctl.dev = .service) (hp : s.ctl.pinHeld = false)
    (hn : s.link.notices.length < 128) (hh : s.place.held = some h) :
    exec (.heldContainerNoticeEntry k none) s =
      .next (((s.noteCorrected k).resumePlace h).checkMarks ((s.noteCorrected k).resumePlace h).slotNumbers) := by
  simp only [exec, execHeldContainerNoticeEntry, hp, hasRoom_iff.2 hn, hd, hh, Bool.false_eq_true,
    Bool.true_eq_false, or_self, if_false]

/-- R96: the held event goes on, and then the marks settle. -/
theorem heldEvent_goesOn (hd : s.ctl.dev = .service) (hp : s.ctl.pinHeld = false)
    (hn : s.link.notices.length < 128) (hh : s.place.held = some h) :
    ∃ t, exec (.heldContainerNoticeEntry k none) s = .next t ∧
      ((s.noteCorrected k).resumePlace h).ThenSettles t :=
  ⟨_, exec_heldContainerNoticeEntry hd hp hn hh, checkMarks_thenSettles _⟩

/-- R96: it goes on as the command that would make it does where nothing is held. -/
theorem heldEvent_asIf {i : Instr} (hd : s.ctl.dev = .service) (hp : s.ctl.pinHeld = false)
    (hn : s.link.notices.length < 128) (hh : s.place.held = some h)
    (hx : exec i s.unholdPlace = .next ((s.noteCorrected k).resumePlace h)) :
    ∃ u t, exec i { s with place := { s.place with held := none } } = .next u ∧
      exec (.heldContainerNoticeEntry k none) s = .next t ∧ u.ThenSettles t :=
  have ⟨t, ht, hu⟩ := heldEvent_goesOn hd hp hn hh
  ⟨_, t, hx, ht, hu⟩

section unheld

variable (hd : s.ctl.dev = .service) (hp : s.ctl.pinHeld = false)
include hd hp

theorem exec_lookupApply_unheld {q : QLookup} {later : List QLookup} (hl : s.index.lookups = q :: later)
    (hq : q.state = .read) :
    exec (.lookupApply k) s.unholdPlace = .next ((s.noteCorrected k).resumePlace .apply) := by
  have hs : s.unholdPlace.inService = true := inService_iff.2 ⟨hd, hp⟩
  have hl' : s.unholdPlace.index.lookups = q :: later := hl
  simp only [exec, execLookupApply, hs, hl', hq]
  rfl

theorem exec_releaseOpDone_unheld (ho : s.index.other = some (.release b)) :
    exec (.releaseOpDone k) s.unholdPlace = .next ((s.noteCorrected k).resumePlace .release) := by
  have hs : s.unholdPlace.inService = true := inService_iff.2 ⟨hd, hp⟩
  have ho' : s.unholdPlace.index.other = some (.release b) := ho
  simp only [exec, execReleaseOpDone, hs, ho']
  rfl

theorem exec_sweepOpDone_unheld (ho : s.index.other = some (.sweep b)) :
    exec (.sweepOpDone k) s.unholdPlace = .next ((s.noteCorrected k).resumePlace .sweep) :=
  SweepWalker.exec_sweepOpDone (s := s.unholdPlace) hd hp rfl ho

end unheld

/-- R156: with nothing held a container request at the head is taken. -/
theorem unholdPlace_takesNow {kind : ReqKind} (hp : s.ctl.pinHeld = false) (hdata : s.dataHeld = none)
    (hq : s.link.requests = r :: rest) (hk : r.kind = kind) (hc : kind = .durable ∨ kind = .lost ∨ kind = .flush) :
    s.unholdPlace.TakesNow kind r rest := by
  refine ⟨hq, hk, hp, ?_⟩
  rcases hc with rfl | rfl | rfl <;> simp [State.ownerFree, hdata]

/-- R96: a held container request goes on as its row takes it with nothing held. -/
theorem exec_request_unheld {i : Instr} {kind : ReqKind} {take : Request → State → State}
    (hp : s.ctl.pinHeld = false) (hc : rowTaking i = some (kind, fun r s => take r (s.noteCorrected k)))
    (hkinds : kind = .durable ∨ kind = .lost ∨ kind = .flush)
    (hr : ∀ u : State, u.link.requests = r :: rest → u.resumeRequest = take r u) (hdata : s.dataHeld = none)
    (hq : s.link.requests = r :: rest) (hk : r.kind = kind) :
    exec i s.unholdPlace = .next ((s.noteCorrected k).resumePlace .request) := by
  have hresume : (s.noteCorrected k).resumePlace .request = take r (s.unholdPlace.noteCorrected k) :=
    hr (s.unholdPlace.noteCorrected k) hq
  rw [hresume]
  exact exec_of_takesNow hc (unholdPlace_takesNow hp hdata hq hk hkinds)

section resumed

variable (hq : s.link.requests = r :: rest)
include hq

theorem resumeRequest_durable (hk : r.kind = .durable) : s.resumeRequest = takeDurable r s := by
  simp only [State.resumeRequest, hq, hk]

theorem resumeRequest_lost (hk : r.kind = .lost) : s.resumeRequest = takeLost r s := by
  simp only [State.resumeRequest, hq, hk]

theorem resumeRequest_flush (hk : r.kind = .flush) : s.resumeRequest = takeFlush r s := by
  simp only [State.resumeRequest, hq, hk]

end resumed

/-- R96, R85: a held STARVED notice enters. -/
theorem resumePlace_starved {q : QLookup} {later : List QLookup} (hl : s.index.lookups = q :: later)
    (hg : (s.slot q.lk.slot).group = some g) :
    s.resumePlace .starved = { s with
      place := { s.place with held := none }
      link := s.link.noticed
        (.starved g q.lk.slot q.lk.length s.place.nFull s.place.nReclaimable s.place.nLost) } := by
  have hl' : s.unholdPlace.index.lookups = q :: later := hl
  have hg' : (s.unholdPlace.slot q.lk.slot).group = some g := hg
  simp only [State.resumePlace, State.resumeStarved, hl', State.starvedNotice, hg', Option.getD_some]
  rfl

/-! ## A held request stays at the head -/

/-- The step keeps a held request at the head of the queue. -/
def Keeps (s t : State) : Prop := s.HeldRequestAtHead → t.HeldRequestAtHead

theorem keeps_of_not_held (h : t.place.held ≠ some .request) : Keeps s t := fun _ ht => absurd ht h

/-- What takes no request and leaves the device state and a held DATA REFUSED alone may add requests at the tail. -/
theorem keeps_of_queued {more : List Request} (hheld : s.NoHold t) (hdev : t.ctl.dev = s.ctl.dev)
    (hdata : t.dataHeld = s.dataHeld) (hreq : t.link.requests = s.link.requests ++ more) : Keeps s t := by
  intro hs ht
  obtain ⟨hd, hn, r, rest, hq, hk⟩ := hs (hheld ht)
  exact ⟨hdev.trans hd, hdata.trans hn, r, rest ++ more, by rw [hreq, hq, List.cons_append], hk⟩

theorem keeps_of_aside (h : s.Aside t) : Keeps s t :=
  keeps_of_queued (more := []) h.held h.dev h.data (h.requests.trans (List.append_nil _).symm)

/-- What cannot come about while a container request is held holds none. -/
theorem keeps_of_noHold (h : s.NoHold t) (hs : s.HeldRequestAtHead → s.place.held ≠ some .request) : Keeps s t :=
  fun hh ht => absurd (h ht) (hs hh)

theorem keeps_of_dev (h : s.NoHold t) (hd : s.ctl.dev ≠ .service) : Keeps s t :=
  keeps_of_noHold h fun hs hh => hd (hs hh).1

/-! ## Requests taken -/

/-- R156: the placement unit's requests, which it can hold. -/
def holdable : List ReqKind := [.durable, .lost, .flush]

theorem row_noHold {i : Instr} {kind : ReqKind} {take : Request → State → State}
    (hc : rowTaking i = some (kind, take)) (hk : kind ∉ holdable) (s : State) (r : Request) :
    s.NoHold (take r s) := by
  cases i <;> cases hc
  case status => exact noHold_answer _ _ _
  case reset => exact noHold_takeReset r
  case setSetting => exact noHold_takeSetSetting r
  case saveSettings => exact noHold_takeSave r
  case declare => exact noHold_takeDeclare (s := s.noteCorrected _) r
  case seed => exact noHold_takeSeed (s := s.noteCorrected _) _ r
  case beginService => exact noHold_takeBegin (s := s.noteCorrected _) _ r
  case openStream => exact noHold_takeOpen r
  case data => exact noHold_takeData r
  case mark => exact noHold_takeMark r
  case readReport => exact noHold_takeReadReport r
  case ackReport => exact noHold_takeAckReport r
  case retime => exact noHold_takeRetime r
  case setWeight => exact noHold_takeSetWeight r
  case setPacing => exact noHold_takeSetPacing r
  case snapshot => exact noHold_takeSnapshot r
  case close => exact noHold_takeClose r
  case abort => exact noHold_takeAbort (s := s.noteCorrected _) r
  case durable => exact absurd (by simp [holdable]) hk
  case lost => exact absurd (by simp [holdable]) hk
  case free => exact noHold_takeFree (s := s.noteCorrected _) r
  case flush => exact absurd (by simp [holdable]) hk
  case queryContainer => exact noHold_takeQueryContainer (s := s.noteCorrected _) r
  case release => exact noHold_takeRelease r
  case clearHold => exact noHold_takeClearHold r
  case resetBaseline => exact noHold_takeResetBaseline r
  case queryBranch => exact noHold_takeQueryBranch r
  -- SEAL is left: its name is a keyword, which a case cannot give.
  exact noHold_takeSeal (s := s.noteCorrected _) r

theorem row_heldOrTaken {i : Instr} {kind : ReqKind} {take : Request → State → State}
    (hc : rowTaking i = some (kind, take)) (hk : kind ∈ holdable) (s : State) (r : Request) :
    ∃ k, (s.noteCorrected k).HeldOrTaken (take r s) := by
  simp only [holdable, List.mem_cons, List.not_mem_nil, or_false] at hk
  cases i <;> cases hc <;> simp only [reduceCtorEq, or_self] at hk
  case durable k => exact ⟨k, takeDurable_holds r⟩
  case lost k => exact ⟨k, takeLost_holds r⟩
  case flush k => exact ⟨k, takeFlush_holds r⟩

theorem dataHeld_of_takesNow {kind : ReqKind} (h : s.TakesNow kind r rest) : s.dataHeld = none := by
  obtain ⟨-, -, -, hf⟩ := h
  simp only [State.ownerFree, Bool.and_eq_true] at hf
  simpa using hf.1

/-- R156: while a container request is held, the owner of the request at the head takes none. -/
theorem not_held_of_takesNow {kind : ReqKind} (h : s.TakesNow kind r rest) (hs : s.HeldRequestAtHead) :
    s.place.held ≠ some .request := by
  intro hh
  obtain ⟨hd, hn, q, later, hq, hk⟩ := hs hh
  obtain ⟨hr, rfl, -, hf⟩ := h
  obtain ⟨rfl, rfl⟩ := List.cons.inj (hq.symm.trans hr)
  rcases hk with hk | hk | hk <;> simp [State.ownerFree, hn, hd, hh, hk] at hf

/-- R96: a container request taken now is held at the head, or no request is held. -/
theorem keeps_of_heldOrTaken {kind : ReqKind} (h : s.TakesNow kind r rest) (hk : kind ∈ holdable)
    (ht : (s.noteCorrected k).HeldOrTaken t) : Keeps s t := by
  have hdata := dataHeld_of_takesNow h
  obtain ⟨-, hd, rfl⟩ | hno := ht
  · obtain ⟨hq, rfl, -, -⟩ := h
    exact fun _ _ => ⟨hd, hdata, r, rest, hq, by simpa [holdable] using hk⟩
  · exact keeps_of_noHold hno (not_held_of_takesNow h)

/-- R12, R96, R156: a request row. -/
theorem row_keeps {i : Instr} {kind : ReqKind} {take : Request → State → State}
    (hc : rowTaking i = some (kind, take)) (hx : exec i s = .next t) : Keeps s t := by
  cases hr : s.headRequest kind with
  | none =>
    simp only [exec_requestRow hc, hr] at hx
    cases hx
    exact id
  | some r =>
    obtain ⟨rest, h⟩ := headRequest_eq_some.1 hr
    rw [exec_of_takesNow hc h] at hx
    cases hx
    by_cases hk : kind ∈ holdable
    · obtain ⟨k, ht⟩ := row_heldOrTaken hc hk s r
      exact keeps_of_heldOrTaken h hk ht
    · exact keeps_of_noHold (row_noHold hc hk s r) (not_held_of_takesNow h)

/-! ## Commands that take no request -/

/-- Whatever the command brings about, it takes no request, and leaves the device state and a held DATA REFUSED
alone. -/
def Rests (s : State) (o : Host.Outcome State Fault Refusal) : Prop := ∀ t, o = .next t → s.Aside t

theorem rests_next (h : s.Aside t) : Rests s (.next t) := fun _ ht => Host.Outcome.next.inj ht ▸ h

/-- Log entry 10: a command whose conditions do not hold. -/
theorem rests_idle : Rests s (.next s) := rests_next (.refl s)

theorem rests_ite {p : Prop} [Decidable p] {o o' : Host.Outcome State Fault Refusal} (h : Rests s o)
    (h' : Rests s o') : Rests s (if p then o else o') := by
  split
  · exact h
  · exact h'

theorem aside_noteCorrected : s.Aside (s.noteCorrected k) := ⟨rfl, rfl, rfl, id⟩

/-- The corrected errors of a command's reads are noted first. -/
theorem rests_noted (h : (s.noteCorrected k).Aside t) : Rests s (.next t) := rests_next (aside_noteCorrected.trans h)

/-! ### The record link -/

theorem aside_takeCredit (m : Nat) : s.Aside (s.takeCredit m) := ⟨rfl, rfl, rfl, id⟩

theorem rests_credit (m : Nat) : Rests s (execCredit m s) := rests_ite rests_idle (rests_next (aside_takeCredit m))

theorem aside_linkFault (cause : LinkCause) : s.Aside (s.linkFault cause) := by
  have hr : s.Aside { s with link := s.link.raise cause } := by cases cause <;> exact ⟨rfl, rfl, rfl, id⟩
  simp only [State.linkFault]
  split
  · exact hr
  · split
    · exact hr.trans (aside_enter _ _)
    · refine hr.trans ?_
      cases cause <;> exact ⟨rfl, rfl, rfl, id⟩

theorem rests_pendingLinkFaultEntry : Rests s (execPendingLinkFaultEntry s) := by
  unfold execPendingLinkFaultEntry
  split
  · next cause _ =>
    refine rests_ite (rests_next ?_) rests_idle
    cases cause <;> exact ⟨rfl, rfl, rfl, id⟩
  · exact rests_idle

theorem rests_transmitStart : Rests s (execTransmitStart s) := by
  unfold execTransmitStart
  split
  · exact rests_ite (rests_next ⟨rfl, rfl, rfl, id⟩) rests_idle
  · exact rests_idle

/-! ### The lanes and their scheduler -/

theorem rests_grant : Rests s (execGrant s) := by
  have hframe : s.Aside (if s.frameEnds then s.frameStart else s) := by
    split
    · exact ⟨rfl, rfl, rfl, id⟩
    · exact .refl s
  have hgrant : ∀ (u : State) (l n : Nat), u.Aside (u.grantTo l n) := fun u l n => by
    unfold State.grantTo
    dsimp only
    split
    · exact ⟨rfl, rfl, rfl, id⟩
    · exact .refl u
  unfold execGrant
  split
  · refine rests_ite ?_ rests_idle
    dsimp only
    split
    · exact rests_next (hframe.trans (hgrant _ _ _))
    · exact rests_next hframe
  · exact rests_idle

theorem rests_laneCut (l : Nat) : Rests s (execLaneCut l s) := by
  have hcut : ∀ w, s.Aside (s.cutData l w) := fun w => by
    unfold State.cutData
    split
    · dsimp only
      split <;> exact ⟨rfl, rfl, rfl, id⟩
    · exact .refl s
  unfold execLaneCut
  split
  · split
    · exact rests_ite (rests_next (hcut _)) rests_idle
    · exact rests_idle
    · exact rests_idle
  · exact rests_idle

theorem rests_laneMarkMarker (l : Nat) : Rests s (execLaneMarkMarker l k s) := by
  unfold execLaneMarkMarker
  split
  · next w _ =>
    split
    · next m _ =>
      exact rests_ite (rests_noted (aside_cutMarker _ _ _ _ _ fun u => aside_reportMark u l w m)) rests_idle
    · exact rests_idle
    · exact rests_idle
  · exact rests_idle

theorem rests_laneEndMarker (l : Nat) : Rests s (execLaneEndMarker l s) := by
  unfold execLaneEndMarker
  split
  · next w _ =>
    split
    · next m _ =>
      exact rests_ite (rests_next (aside_cutMarker _ _ _ _ _ fun u => aside_reportEnd u l w m)) rests_idle
    · exact rests_idle
    · exact rests_idle
  · exact rests_idle

theorem aside_laneResume (l : Nat) (w : Work) (lk : Lookup) : s.Aside (s.laneResume l w lk) := by
  unfold State.laneResume
  dsimp only
  split
  · exact ⟨rfl, rfl, rfl, id⟩
  · exact State.Aside.after (aside_reportMark _ _ _ _) ⟨rfl, rfl, rfl, id⟩
  · exact State.Aside.after (aside_reportEnd _ _ _ _) ⟨rfl, rfl, rfl, id⟩

theorem rests_laneLookupJoin : Rests s (execLaneLookupJoin k s) := by
  unfold execLaneLookupJoin
  repeat' split
  · exact rests_noted (aside_laneResume _ _ _)
  all_goals exact rests_idle

theorem rests_laneEntryFinish (l : Nat) : Rests s (execLaneEntryFinish l s k) := by
  unfold execLaneEntryFinish
  split
  · refine rests_ite ?_ rests_idle
    split
    · split
      · exact rests_noted (aside_finishEntry _ _ _ _ _)
      · exact rests_idle
    · exact rests_ite (rests_noted (aside_finishEntry _ _ _ _ _)) rests_idle
    · exact rests_ite (rests_noted (aside_finishEntry _ _ _ _ _)) rests_idle
  · exact rests_idle

/-! ### The tick -/

theorem rests_tick : Rests s (execTick s k) := rests_ite (rests_noted (aside_tickSlots _ _)) rests_idle

theorem rests_pacingMatch : Rests s (execPacingMatch n s k) :=
  rests_ite (rests_noted (aside_pacingMatch _ _)) rests_idle

theorem rests_markTimerLimit : Rests s (execMarkTimerLimit n s k) :=
  rests_ite (rests_noted (aside_violate _ _)) rests_idle

/-! ### The index unit -/

theorem rests_lookupPortGrant : Rests s (execLookupPortGrant s) := by
  have hgrant : ∀ i, s.Aside (s.grantLookup i) := fun i => by
    unfold State.grantLookup
    split
    · exact ⟨rfl, rfl, rfl, id⟩
    · exact .refl s
  unfold execLookupPortGrant
  split
  · exact rests_ite (rests_next (hgrant _)) rests_idle
  · exact rests_idle

theorem rests_lookupReadDone (i : Nat) : Rests s (execLookupReadDone i k s) := by
  have hread : ∀ (u : State) (q : QLookup), u.Aside (u.completeRead i q) := fun u q => by
    unfold State.completeRead
    split <;> exact ⟨rfl, rfl, rfl, id⟩
  unfold execLookupReadDone
  split
  · refine rests_ite (rests_ite (rests_noted (hread _ _)) ?_) rests_idle
    exact rests_ite (rests_next aside_noteCorrected) rests_idle
  · exact rests_idle

theorem rests_lookupApply : Rests s (execLookupApply k s) := rests_ite (rests_noted (aside_applyHead _)) rests_idle

theorem rests_releasePortGrant : Rests s (execReleasePortGrant s) := by
  unfold execReleasePortGrant
  split
  · exact rests_ite (rests_next ⟨rfl, rfl, rfl, id⟩) rests_idle
  · exact rests_idle

theorem rests_releaseOpDone : Rests s (execReleaseOpDone k s) := by
  unfold execReleaseOpDone
  split
  · refine rests_ite (rests_noted (aside_releaseOp _)) ?_
    exact rests_ite (rests_next aside_noteCorrected) rests_idle
  · exact rests_idle

theorem rests_heldReleaseCompleteEntry : Rests s (execHeldReleaseCompleteEntry s) :=
  rests_ite (rests_next ((aside_completeRelease s).trans (aside_advanceReleases _ _))) rests_idle

theorem rests_sweepPortGrant : Rests s (execSweepPortGrant s) :=
  rests_ite (rests_next ⟨rfl, rfl, rfl, id⟩) rests_idle

theorem rests_sweepOpDone : Rests s (execSweepOpDone k s) := by
  unfold execSweepOpDone
  split
  · refine rests_ite (rests_noted (aside_sweepOp _)) ?_
    exact rests_ite (rests_next aside_noteCorrected) rests_idle
  · exact rests_idle

/-! ### Held notices -/

theorem rests_heldStreamClosedEntry : Rests s (execHeldStreamClosedEntry n s) := rests_next (aside_tryClose s n)

theorem rests_heldReportEntry : Rests s (execHeldReportEntry n s) := by
  unfold execHeldReportEntry
  split
  · exact rests_ite (rests_next ((aside_setSlot s n _).trans (aside_enterReport _ _ _))) rests_idle
  · exact rests_idle

theorem rests_heldSurgeEntry (order : List Nat) : Rests s (execHeldSurgeEntry order s) := by
  unfold execHeldSurgeEntry
  split
  · refine rests_ite (rests_next (State.Aside.after (aside_takeHandOns _ _) ?_)) rests_idle
    exact ⟨rfl, rfl, rfl, id⟩
  · exact rests_idle

theorem aside_makeSaved (w : Settings) : s.Aside (s.makeSaved w) := by
  unfold State.makeSaved
  split <;> exact ⟨rfl, rfl, rfl, id⟩

theorem rests_settingsProgramDone : Rests s (execSettingsProgramDone s) := by
  unfold execSettingsProgramDone
  split
  · refine rests_ite rests_idle (rests_next (State.Aside.after (aside_makeSaved _) ?_))
    exact ⟨rfl, rfl, rfl, id⟩
  · exact rests_idle

theorem rests_heldSettingsSavedEntry : Rests s (execHeldSettingsSavedEntry s) := by
  unfold execHeldSettingsSavedEntry
  split
  · exact rests_ite (rests_next (aside_makeSaved _)) rests_idle
  · exact rests_idle

theorem rests_pendingFaultEntry : Rests s (execPendingFaultEntry s) := by
  unfold execPendingFaultEntry
  split
  · exact rests_ite (rests_next ⟨rfl, rfl, rfl, id⟩) rests_idle
  · exact rests_idle

/-! ## Commands that end a hold, or change what a hold rests on -/

/-- Whatever the command brings about, a held request stays at the head. -/
def Kept (s : State) (o : Host.Outcome State Fault Refusal) : Prop := ∀ t, o = .next t → Keeps s t

theorem kept_next (h : Keeps s t) : Kept s (.next t) := fun _ ht => Host.Outcome.next.inj ht ▸ h

theorem kept_idle : Kept s (.next s) := kept_next id

theorem kept_of_rests {o : Host.Outcome State Fault Refusal} (h : Rests s o) : Kept s o :=
  fun t ht => keeps_of_aside (h t ht)

theorem kept_ite {p : Prop} [Decidable p] {o o' : Host.Outcome State Fault Refusal} (h : p → Kept s o)
    (h' : Kept s o') : Kept s (if p then o else o') := by
  split
  · next hp => exact h hp
  · exact h'

/-- R166: a reset leaves nothing held. -/
theorem keeps_resetTo (cause : ResetCause) (pin : Bool) : Keeps s (s.resetTo cause pin) :=
  keeps_of_not_held (by simp [State.resetTo, Place.reset])

theorem noHold_makeReady : s.NoHold s.makeReady := by
  unfold State.makeReady
  split <;> exact id

theorem ne_service_of_starting (h : s.ctl.dev = .starting) : s.ctl.dev ≠ .service := by simp [h]

theorem kept_indexMemoryClearDone : Kept s (execIndexMemoryClearDone s) := by
  refine kept_ite (fun ⟨hd, _⟩ => kept_next (keeps_of_dev ?_ (ne_service_of_starting hd))) kept_idle
  refine State.NoHold.after noHold_makeReady ?_
  exact id

theorem kept_heldReadyEntry : Kept s (execHeldReadyEntry s) :=
  kept_ite (fun ⟨hd, _⟩ => kept_next (keeps_of_dev noHold_makeReady (ne_service_of_starting hd))) kept_idle

/-- R155: a request received joins the tail of the request queue, or is refused. -/
theorem keeps_receiveRequest (kind stream tag : Nat) (payload : List Byte) :
    Keeps s (s.receiveRequest kind stream tag payload) := by
  unfold State.receiveRequest
  dsimp only
  split
  · exact keeps_of_aside ⟨rfl, rfl, rfl, id⟩
  · split
    · exact keeps_of_queued id rfl rfl rfl
    · exact keeps_of_aside ⟨rfl, rfl, rfl, id⟩

theorem kept_frameReceived (bytes : List Byte) : Kept s (execFrameReceived bytes s) := by
  unfold execFrameReceived
  refine kept_ite (fun _ => kept_idle) ?_
  split
  · exact kept_next (keeps_of_aside (aside_linkFault _))
  · refine kept_next ?_
    unfold State.receiveRecord
    split
    · split
      · exact keeps_of_aside (aside_takeCredit _)
      · exact keeps_of_aside (aside_linkFault _)
    · split
      · refine keeps_of_aside (State.Aside.after (aside_linkFault _) ?_)
        exact ⟨rfl, rfl, rfl, id⟩
      · exact keeps_receiveRequest _ _ _ _

/-- R159, R167: what has been sent leaves its place; after a RESET's reply the reset takes effect. -/
theorem keeps_finishSending (src : TxSource) : Keeps s (s.finishSending src) := by
  unfold State.finishSending
  cases src with
  | reply =>
    dsimp only
    split
    · split
      · exact keeps_of_not_held (by simp [State.resetTo, Place.reset])
      · exact keeps_of_aside ⟨rfl, rfl, rfl, id⟩
    · exact keeps_of_aside ⟨rfl, rfl, rfl, id⟩
  | notice c => exact keeps_of_aside ⟨rfl, rfl, rfl, id⟩
  | batch n =>
    refine keeps_of_aside (State.Aside.after (aside_batchSent _ n) ?_)
    exact ⟨rfl, rfl, rfl, id⟩

theorem kept_frameTransmitted : Kept s (execFrameTransmitted s k) := by
  unfold execFrameTransmitted
  split
  · refine kept_ite (fun _ => kept_idle) (kept_next fun hs => ?_)
    exact keeps_finishSending (s := s.noteCorrected k) _ hs
  · exact kept_idle

theorem kept_seedOpDone (bad : Option Nat) : Kept s (execSeedOpDone k s bad) := by
  unfold execSeedOpDone
  split
  · refine kept_ite (fun ⟨hd, _⟩ => kept_next (keeps_of_dev ?_ (by simp [hd]))) ?_
    · exact noHold_seedOp (s := s.noteCorrected k) bad
    · exact kept_ite (fun _ => kept_next (keeps_of_aside aside_noteCorrected)) kept_idle
  · exact kept_idle

/-- R162: the entry into FAULT refuses a held request. -/
theorem kept_indexMemoryError : Kept s (execIndexMemoryError s) := by
  unfold execIndexMemoryError
  refine kept_ite (fun _ => kept_idle) ?_
  split
  · exact kept_next (keeps_of_not_held enterFault_no)
  · exact kept_next (keeps_of_not_held enterFault_no)
  · exact kept_next (keeps_of_aside aside_noteCorrected)
  · exact kept_idle

/-- R12: while a DATA REFUSED is held no container request was handed on. -/
theorem kept_heldDataRefusedEntry : Kept s (execHeldDataRefusedEntry s) := by
  unfold execHeldDataRefusedEntry
  split
  · next note hn =>
    refine kept_ite (fun _ => kept_next (keeps_of_noHold id fun hs hh => ?_)) kept_idle
    obtain ⟨-, hnone, -⟩ := hs hh
    cases hn.symm.trans hnone
  · exact kept_idle

/-- R128: the mark unit and the placement unit do not hold the one request at the head both. -/
theorem kept_heldAckReport : Kept s (execHeldAckReport s) := by
  unfold execHeldAckReport
  split
  · next r rest hq =>
    refine kept_ite (fun hc => kept_next (keeps_of_noHold ?_ fun hs hh => ?_)) kept_idle
    · exact noHold_takeAckReport (s := { s with marks := { s.marks with ackHeld := false } }) r
    · obtain ⟨-, -, q, later, hq', hk⟩ := hs hh
      obtain ⟨rfl, -⟩ := List.cons.inj (hq.symm.trans hq')
      simp only [Bool.and_eq_true, beq_iff_eq] at hc
      rcases hk with hk | hk | hk <;> cases hc.2.symm.trans hk
  · exact kept_idle

/-- R96: with room, a request gone on with is not held again. -/
theorem noHold_of_heldOrTaken (hr : s.hasRoom = true) (h : s.HeldOrTaken t) : s.NoHold t := by
  obtain ⟨hn, -⟩ | h := h
  · cases hr.symm.trans hn
  · exact h

theorem noHold_resumeRequest (hr : s.hasRoom = true) : s.NoHold s.resumeRequest := by
  unfold State.resumeRequest
  split
  · next r _ _ =>
    split
    · exact noHold_of_heldOrTaken hr (takeDurable_holds r)
    · exact noHold_of_heldOrTaken hr (takeLost_holds r)
    · exact noHold_of_heldOrTaken hr (takeFlush_holds r)
    · exact id
  · exact id

theorem aside_resumeStarved : s.Aside s.resumeStarved := by
  unfold State.resumeStarved
  split
  · exact aside_enter _ _
  · exact .refl s

/-- R96: whatever the held event was, no request is held once it has gone on. -/
theorem resumePlace_no (hr : s.hasRoom = true) (h : PlaceHold) : (s.resumePlace h).place.held ≠ some .request := by
  have hno : s.unholdPlace.NoHold (s.resumePlace h) := by
    match h with
    | .apply => exact (aside_applyHead _).held
    | .release => exact (aside_releaseOp _).held
    | .sweep => exact (aside_sweepOp _).held
    | .request => exact noHold_resumeRequest (s := s.unholdPlace) hr
    | .seal n => exact (aside_checkMark _ n).held
    | .starved => exact aside_resumeStarved.held
  exact fun hh => by cases hno hh

theorem kept_heldContainerNoticeEntry (bad : Option Nat) : Kept s (execHeldContainerNoticeEntry k bad s) := by
  unfold execHeldContainerNoticeEntry
  split
  · exact kept_idle
  · next hc =>
    have hr : s.hasRoom = true := by simpa using fun h => hc (.inr h)
    split
    · next hd _ =>
      refine kept_next (keeps_of_dev ?_ (by simp [hd]))
      exact noHold_runBegin (s := s.noteCorrected k) _ bad
    · next h _ _ =>
      refine kept_next (keeps_of_not_held fun hh => ?_)
      exact resumePlace_no (s := s.noteCorrected k) hr h ((aside_checkMarks _ _).held hh)
    · exact kept_idle

theorem kept_resetPinRelease : Kept s (execResetPinRelease s) :=
  kept_ite (fun _ => kept_next (keeps_resetTo _ _)) kept_idle

/-! ## Every command -/

/-- R12, R96, R156: every command keeps a held request at the head. -/
theorem exec_kept (i : Instr) (s : State) : Kept s (exec i s) := by
  cases hrow : rowTaking i with
  | some row => exact fun t ht => row_keeps hrow ht
  | none =>
    cases i <;> simp only [rowTaking, reduceCtorEq] at hrow
    case powerOnReset => exact kept_next (keeps_resetTo _ _)
    case resetPinAssert => exact kept_next (keeps_resetTo _ _)
    case resetPinRelease => exact kept_resetPinRelease
    case indexMemoryClearDone => exact kept_indexMemoryClearDone
    case frameReceived bytes => exact kept_frameReceived bytes
    case credit m => exact kept_of_rests (rests_credit m)
    case settingsProgramDone => exact kept_of_rests rests_settingsProgramDone
    case seedOpDone k bad => exact kept_seedOpDone bad
    case transmitStart => exact kept_of_rests rests_transmitStart
    case frameTransmitted k => exact kept_frameTransmitted
    case tick k => exact kept_of_rests rests_tick
    case pacingMatch n k => exact kept_of_rests rests_pacingMatch
    case markTimerLimit n k => exact kept_of_rests rests_markTimerLimit
    case grant => exact kept_of_rests rests_grant
    case laneCut l => exact kept_of_rests (rests_laneCut l)
    case laneLookupJoin k => exact kept_of_rests rests_laneLookupJoin
    case laneMarkMarker l k => exact kept_of_rests (rests_laneMarkMarker l)
    case laneEndMarker l => exact kept_of_rests (rests_laneEndMarker l)
    case laneEntryFinish l k => exact kept_of_rests (rests_laneEntryFinish l)
    case lookupPortGrant => exact kept_of_rests rests_lookupPortGrant
    case lookupReadDone i k => exact kept_of_rests (rests_lookupReadDone i)
    case indexMemoryError => exact kept_indexMemoryError
    case lookupApply k => exact kept_of_rests rests_lookupApply
    case releasePortGrant => exact kept_of_rests rests_releasePortGrant
    case releaseOpDone k => exact kept_of_rests rests_releaseOpDone
    case sweepPortGrant => exact kept_of_rests rests_sweepPortGrant
    case sweepOpDone k => exact kept_of_rests rests_sweepOpDone
    case heldReadyEntry => exact kept_heldReadyEntry
    case heldDataRefusedEntry => exact kept_heldDataRefusedEntry
    case heldStreamClosedEntry n => exact kept_of_rests rests_heldStreamClosedEntry
    case heldContainerNoticeEntry k bad => exact kept_heldContainerNoticeEntry bad
    case heldReportEntry n => exact kept_of_rests rests_heldReportEntry
    case heldAckReport => exact kept_heldAckReport
    case heldSurgeEntry order => exact kept_of_rests (rests_heldSurgeEntry order)
    case heldReleaseCompleteEntry => exact kept_of_rests rests_heldReleaseCompleteEntry
    case heldSettingsSavedEntry => exact kept_of_rests rests_heldSettingsSavedEntry
    case pendingFaultEntry => exact kept_of_rests rests_pendingFaultEntry
    case pendingLinkFaultEntry => exact kept_of_rests rests_pendingLinkFaultEntry

theorem step_keeps (h : step s = .next t) : Keeps s t := by
  unfold step at h
  split at h
  · next c rest _ => exact fun hs => exec_kept c (s.withPending rest) t h hs
  · cases h
    exact id

/-- Nothing is held right after reset. -/
theorem heldRequestAtHead_reset : State.reset.HeldRequestAtHead := fun h => by cases h

/-! ## The statement -/

/-- Settles O57: FREE and FLUSH by their refusals and their one effect, the held events by the command each goes on as,
and the held request by what every command keeps. -/
theorem freeAndFlushActAndHeldEventsGoOn : Obligations.FreeAndFlushActAndHeldEventsGoOn := by
  refine ⟨fun k s r rest => ?_, fun k s hd hp hn => ?_, heldRequestAtHead_reset, fun s t hs h => step_keeps h hs⟩
  · intro s' refused
    refine ⟨fun hd => ⟨fun h => ?_, fun h => ?_⟩, fun hd h => ⟨fun hf => ?_, fun hf => ?_⟩,
      fun hd h => ⟨fun hg => ?_, fun hg hp => ?_, fun c hg hp hc hn => ?_, fun c hg hp hn => ?_⟩⟩
    · exact (exec_free h).trans (congrArg _ (takeFree_refused (s := s') h.1 (.inl hd)))
    · exact (exec_flush h).trans (congrArg _ (takeFlush_badState (s := s') h.1 hd))
    · exact (exec_free h).trans (congrArg _ (takeFree_refused (s := s') h.1 (.inr hf)))
    · exact (exec_free h).trans (congrArg _ (takeFree_taken (s := s') h.1 hd hf))
    · exact (exec_flush h).trans (congrArg _ (takeFlush_range (s := s') hd h.1 hg))
    · exact (exec_flush h).trans (congrArg _ (takeFlush_noContainer (s := s') hd h.1 hg hp))
    · exact (exec_flush h).trans (congrArg _ (takeFlush_closed (s := s') hd h.1 hg hp hc hn))
    · exact (exec_flush h).trans (congrArg _ (takeFlush_held (s := s') hd hg hp hn))
  · intro unheld asIf
    refine ⟨fun hh hl => ?_, fun b hh ho => ?_, fun b hh ho => ?_,
      fun r rest hh hdata hq => ⟨fun hk => ?_, fun hk => ?_, fun hk => ?_⟩, fun n hh => ?_,
      fun q later g hh hl hg => ?_⟩
    · obtain ⟨q, later, hl, hq⟩ := hl
      exact heldEvent_asIf hd hp hn hh (exec_lookupApply_unheld hd hp hl hq)
    · exact heldEvent_asIf hd hp hn hh (exec_releaseOpDone_unheld hd hp ho)
    · exact heldEvent_asIf hd hp hn hh (exec_sweepOpDone_unheld hd hp ho)
    · exact heldEvent_asIf hd hp hn hh (exec_request_unheld (take := takeDurable) hp rfl (.inl rfl)
        (fun u hu => resumeRequest_durable hu hk) hdata hq hk)
    · exact heldEvent_asIf hd hp hn hh (exec_request_unheld (take := takeLost) hp rfl (.inr (.inl rfl))
        (fun u hu => resumeRequest_lost hu hk) hdata hq hk)
    · exact heldEvent_asIf hd hp hn hh (exec_request_unheld (take := takeFlush) hp rfl (.inr (.inr rfl))
        (fun u hu => resumeRequest_flush hu hk) hdata hq hk)
    · obtain ⟨t, ht, hu⟩ := heldEvent_goesOn (k := k) hd hp hn hh
      exact ⟨_, t, checkMark_settled (unheld.noteCorrected k) n, ht, hu⟩
    · obtain ⟨t, ht, hu⟩ := heldEvent_goesOn (k := k) hd hp hn hh
      rw [resumePlace_starved (s := s.noteCorrected k) hl hg] at hu
      exact ⟨t, ht, hu⟩

end Sys2Proof.HeldEvents

/-! PROOFS. The places of the verdict queues and dependency sets (R41, R101, R102, R116, R117): a step that does not
keep `State.PlacesInOrder`. The invariant counts the work of every lane for its stream, but does not say that an IDLE lane
holds none (R33), and a GRANT to a lane that is IDLE and holds a work overwrites it. -/

namespace Sys2Proof.VerdictPlaces

open Machine

/-! ## A state in which an IDLE lane still holds the work of a stream -/

/-- R31: a DRAINING stream whose END marker has been reported consumed and still heads its input queue. -/
def endingSlot : Slot :=
  { Slot.free with state := .draining, current := some (.fresh 0 0), queue := [.endMark 0], endConsumed := true }

/-- R22, R169: the factory profile's lengths and masks. -/
def factoryProfile : Profile := ⟨2048, 8192, 32768, 14, 12, 0, []⟩

/-- R41: an ACTIVE stream with budget and one data byte to be granted. -/
def eligibleSlot : Slot :=
  { Slot.free with
    state := .active, current := some (.fresh 0 0), queue := [.data 0 [0]], profile := some factoryProfile
    ctx := some ⟨0, 0, 0, []⟩, budget := 1 }

/-- R31: the work of the lane at that END marker, the marker reported and the entry not finished. -/
def endingWork : Work := ⟨1, .endMark 0, [], factoryProfile, ⟨0, 0, 0, []⟩, true, none⟩

/-- Lane 1 is IDLE and holds the work of stream 1, and a GRANT is to come for stream 2. -/
def idleHolding : State :=
  { State.reset with
    pending := [.grant]
    ctl := { State.reset.ctl with dev := .service, clearing := false }
    slots := [(1, endingSlot), (2, eligibleSlot)]
    lanes := [(1, ⟨.idle, some endingWork⟩)] }

/-- R34, R45: after the GRANT lane 1 works for stream 2, and no lane holds stream 1. -/
def workLost : State :=
  { idleHolding with
    pending := []
    slots := [(1, endingSlot), (2, { eligibleSlot with budget := 0 })]
    sched := ⟨128, 1, 1⟩
    lanes := [(1, ⟨.working, some ⟨2, .data 0 [0], [0], factoryProfile, ⟨0, 0, 0, []⟩, false, none⟩⟩)] }

theorem step_idleHolding : step idleHolding = .next workLost := rfl

theorem worksOf_idleHolding (n : Nat) : idleHolding.worksOf n = if n = 1 then [endingWork] else [] := by
  by_cases h : n = 1
  · subst h; rfl
  · simp [State.worksOf, idleHolding, endingWork, Ne.symm h, h]

theorem slot_idleHolding (n : Nat) :
    idleHolding.slot n = if n = 1 then endingSlot else if n = 2 then eligibleSlot else Slot.free := by
  simp only [State.slot, idleHolding, tableGet, eq_comm]

/-- What holds of the three slots, each with the works of the lanes that hold its stream, holds of every number's. -/
theorem forall_idleHolding {P : Nat → Slot → List Work → Prop} (h1 : P 1 endingSlot [endingWork])
    (h2 : P 2 eligibleSlot []) (h : ∀ n, P n Slot.free []) (n : Nat) :
    P n (idleHolding.slot n) (idleHolding.worksOf n) := by
  rw [slot_idleHolding, worksOf_idleHolding]
  by_cases e1 : n = 1
  · subst e1; exact h1
  · by_cases e2 : n = 2
    · subst e2; exact h2
    · rw [if_neg e1, if_neg e1, if_neg e2]
      exact h n

theorem cutsLeft_idleHolding (n : Nat) : idleHolding.cutsLeft n = 0 :=
  forall_idleHolding (P := fun _ _ ws => (ws.map Work.cutsLeft).sum = 0) rfl rfl (fun _ => rfl) n

theorem unconsumed_idleHolding (n : Nat) : (idleHolding.unconsumed n).filter Entry.isMark = [] :=
  forall_idleHolding
    (P := fun _ sl ws =>
      (if ws.any (fun w => w.markerDone) then sl.queue.drop 1 else sl.queue).filter Entry.isMark = [])
    rfl rfl (fun _ => rfl) n

/-- R114: the only span any slot holds is a fresh one of number 0. -/
theorem has_idleHolding {n : Nat} {sp : Span} : (idleHolding.slot n).Has sp → sp = .fresh 0 0 :=
  forall_idleHolding (P := fun _ sl _ => sl.Has sp → sp = .fresh 0 0) (fun h => h.elim (by rintro ⟨⟩; rfl) nofun)
    (fun h => h.elim (by rintro ⟨⟩; rfl) nofun) (fun _ h => h.elim nofun nofun) n

theorem idleHolding_inOrder : idleHolding.PlacesInOrder where
  verdicts n := by
    rw [cutsLeft_idleHolding]
    exact forall_idleHolding (P := fun _ sl _ => sl.filled.length + sl.reserved + 0 ≤ 64) (by decide) (by decide)
      (fun _ => by decide) n
  deps n sp h := by
    obtain rfl := has_idleHolding (.inl h)
    rw [cutsLeft_idleHolding]
    decide
  endedDeps n sp h := by
    obtain rfl := has_idleHolding (.inr h)
    decide
  reserved := forall_idleHolding (P := fun _ sl _ => sl.reserved = 0) rfl rfl (fun _ => rfl)
  outstanding n sp h := by
    obtain rfl := has_idleHolding h
    rfl
  spans := nofun
  numbers :=
    forall_idleHolding
      (P := fun _ sl _ => sl.state ≠ .free → ∃ sp, sl.current = some sp ∧ sp.number ≤ 1 ∧
        ∀ e, sl.ended = some e → e.number = 1 - sp.number)
      (fun _ => ⟨_, rfl, by decide, nofun⟩) (fun _ => ⟨_, rfl, by decide, nofun⟩) (fun _ h => absurd rfl h)
  free := forall_idleHolding (P := fun _ sl _ => sl.state = .free → sl = Slot.free) nofun nofun (fun _ _ => rfl)
  markers n := by simp [unconsumed_idleHolding]
  ends :=
    forall_idleHolding
      (P := fun _ sl _ => ∀ pre m post, sl.queue = pre ++ .endMark m :: post → post = [] ∧ sl.state ≠ .active)
      (fun pre m post h => by
        simp [endingSlot, List.singleton_eq_append_iff] at h
        exact ⟨h.2.2, nofun⟩)
      (fun pre m post h => by simp [eligibleSlot, List.singleton_eq_append_iff] at h)
      (fun _ pre m post h => by simp [Slot.free] at h)
  data :=
    forall_idleHolding (P := fun _ sl _ => ∀ off bytes, .data off bytes ∈ sl.queue → bytes.length ≤ 4096)
      (by simp [endingSlot]) (by simp [eligibleSlot]) (fun _ => nofun)
  payloads := nofun
  profiles :=
    forall_idleHolding (P := fun _ sl _ => ∀ p, sl.profile = some p → p.Ordered) nofun
      (by rintro _ ⟨⟩; exact ⟨by decide, by decide, by decide⟩) (fun _ => nofun)
  settings := ⟨by constructor <;> decide, nofun, nofun⟩
  listed := rfl
  lanes p hp w hw := by
    obtain rfl : p = (1, ⟨.idle, some endingWork⟩) := List.mem_singleton.1 hp
    obtain rfl : endingWork = w := Option.some.inj hw
    exact ⟨by decide, by decide, rfl, ⟨by decide, by decide, by decide⟩, nofun⟩
  single := forall_idleHolding (P := fun _ _ ws => ws.length ≤ 1) (by decide) (by decide) (fun _ => by decide)
  quiet n h := by
    refine ⟨cutsLeft_idleHolding n, ?_⟩
    revert h
    exact forall_idleHolding
      (P := fun _ sl ws => sl.endConsumed = true ∨ sl.finalMade = true →
        sl.state = .aborting ∨ sl.state = .draining ∧ (sl.queue = [] ∨ sl.queue.length = 1 ∧ ws ≠ []))
      (fun _ => .inr ⟨rfl, .inr ⟨rfl, by simp⟩⟩) (fun h => h.elim nofun nofun) (fun _ h => h.elim nofun nofun) n
  last := forall_idleHolding (P := fun _ sl _ => sl.finalMade = true → sl.reserved = 0) nofun nofun (fun _ => nofun)

/-! ## The statement -/

/-- R31, R37: the END marker of stream 1 is consumed and its entry not finished, yet no lane is there to finish it. -/
theorem not_inOrder_workLost : ¬ workLost.PlacesInOrder := fun h => by
  obtain ⟨-, haborting | ⟨-, hempty | ⟨-, hheld⟩⟩⟩ := h.quiet 1 (.inl rfl)
  · cases haborting
  · cases hempty
  · exact hheld rfl

/-- Refutes O6: in `idleHolding` an IDLE lane holds the work of stream 1, which no rule of the manual brings about
(R33, R37) and the invariant does not exclude. GRANT gives that lane to stream 2, and the END marker of stream 1 is left
consumed, with its entry in the queue and no lane to finish it. The bounds of 64 and 32 still hold there. -/
theorem not_verdictAndDependencyPlacesHold : ¬ Obligations.VerdictAndDependencyPlacesHold := fun h =>
  not_inOrder_workLost (h idleHolding workLost idleHolding_inOrder step_idleHolding).1

end Sys2Proof.VerdictPlaces

/-! PROOFS. Time and verdict batches (chapter 6): a tick at which nothing matches changes each slot by one function
(`Slot.ticked`), tied to the model slot by slot (`tickSlot_changes`) and then over the slots of the table; a pacing
match clears the counter and calls for a batch. -/

namespace Sys2Proof.Pacing

open Machine BranchStreams

variable {s t u : State} {n k : Nat} {f g : Slot → Slot} {sl : Slot}

/-! ## One slot changed -/

/-- The step from `s` to `t` changes slot `n` by `f` and nothing else. -/
def Changes (n : Nat) (f : Slot → Slot) (s t : State) : Prop :=
  t = { s with slots := t.slots } ∧ ∀ m, t.slot m = if m = n then f (s.slot n) else s.slot m

theorem slotsAlone_trans (h : t = { s with slots := t.slots }) (h' : u = { t with slots := u.slots }) :
    u = { s with slots := u.slots } := h'.trans (by rw [h])

theorem changes_setSlot : Changes n f s (s.setSlot n (f (s.slot n))) := ⟨rfl, State.slot_setSlot s n _⟩

theorem changes_refl (h : f (s.slot n) = s.slot n) : Changes n f s s :=
  ⟨rfl, fun m => by split <;> simp_all⟩

theorem Changes.slot_self (h : Changes n f s t) : t.slot n = f (s.slot n) := (h.2 n).trans (if_pos rfl)

theorem Changes.comp (h : Changes n f s t) (h' : Changes n g t u) : Changes n (g ∘ f) s u := by
  refine ⟨slotsAlone_trans h.1 h'.1, fun m => ?_⟩
  rw [h'.2, h.slot_self, h.2]
  split <;> rfl

/-! ## The tick of one slot -/

/-- R127: a report in the report slot grows older, up to the greatest age. -/
def aged (sl : Slot) : Slot := { sl with reportSlot := sl.reportSlot.map (fun p => (p.1, min 4294967295 (p.2 + 1))) }

/-- R104: a running pacing counter rises. -/
def paced (sl : Slot) : Slot :=
  { sl with
    pacingCounter := if sl.state = .free ∨ sl.finalMade = true then sl.pacingCounter else sl.pacingCounter + 1 }

/-- R125: a running mark timer rises. -/
def timed (sl : Slot) : Slot :=
  { sl with mark := { sl.mark with timer := if sl.mark.phase = .none then sl.mark.timer else sl.mark.timer + 1 } }

/-- R104, R125, R127: a tick of a slot at which nothing matches. -/
def ticked (sl : Slot) : Slot := timed (paced (aged sl))

theorem aged_of_none (h : sl.reportSlot = none) : aged sl = sl := by
  cases sl
  simp_all [aged]

theorem paced_of_still (h : sl.state = .free ∨ sl.finalMade = true) : paced sl = sl := by simp [paced, h]

theorem timed_of_none (h : sl.mark.phase = .none) : timed sl = sl := by
  unfold timed
  rw [if_pos h]

theorem tickAge_changes : Changes n aged s (s.tickAge n) := by
  simp only [State.tickAge]
  split
  · next rep age h =>
    have : aged (s.slot n) = { s.slot n with reportSlot := some (rep, satAdd Config.counterMax age 1) } := by
      simp [aged, h, satAdd, Config.counterMax]
    rw [← this]
    exact changes_setSlot
  · next h => exact changes_refl (aged_of_none h)

theorem tickPacing_changes (h : (s.slot n).atMatch = false) : Changes n paced s (s.tickPacing n) := by
  simp only [State.tickPacing, h, Bool.false_eq_true, if_false]
  split
  · next hstill => exact changes_refl (paced_of_still hstill)
  · next hruns =>
    have : paced (s.slot n) = { s.slot n with pacingCounter := (s.slot n).pacingCounter + 1 } := by simp [paced, hruns]
    rw [← this]
    exact changes_setSlot

theorem tickMark_changes (h : (s.slot n).atLimit = false) : Changes n timed s (s.tickMark n) := by
  simp only [State.tickMark, h, Bool.false_eq_true, if_false]
  split
  · next hnone => exact changes_refl (timed_of_none hnone)
  · next hruns =>
    have : timed (s.slot n) =
        { s.slot n with mark := { (s.slot n).mark with timer := (s.slot n).mark.timer + 1 } } := by simp [timed, hruns]
    rw [← this]
    exact changes_setSlot

theorem tickSlot_changes (hm : (s.slot n).atMatch = false) (hl : (s.slot n).atLimit = false) :
    Changes n ticked s (s.tickSlot n) := by
  have hage := tickAge_changes (s := s) (n := n)
  have hpace := tickPacing_changes (s := s.tickAge n) (n := n) (by rw [hage.slot_self]; exact hm)
  have hboth := hage.comp hpace
  exact hboth.comp (tickMark_changes (by rw [hboth.slot_self]; exact hl))

/-! ## The tick of every slot -/

theorem tickSlots_ticked {ns : List Nat} (hd : ns.Nodup)
    (h : ∀ n ∈ ns, (s.slot n).atMatch = false ∧ (s.slot n).atLimit = false) :
    s.tickSlots ns = { s with slots := (s.tickSlots ns).slots } ∧
      ∀ m, (s.tickSlots ns).slot m = if m ∈ ns then ticked (s.slot m) else s.slot m := by
  induction ns generalizing s with
  | nil => exact ⟨rfl, fun m => rfl⟩
  | cons n ns ih =>
    obtain ⟨hn, hd⟩ := List.nodup_cons.1 hd
    have hfirst : Changes n ticked s (s.tickSlot n) := tickSlot_changes (h n (by simp)).1 (h n (by simp)).2
    have hother : ∀ m, m ≠ n → (s.tickSlot n).slot m = s.slot m := fun m hm => (hfirst.2 m).trans (if_neg hm)
    obtain ⟨hrest, hslot⟩ := ih (s := s.tickSlot n) hd fun m hm => by
      rw [hother m (fun e => hn (e ▸ hm))]
      exact h m (List.mem_cons_of_mem n hm)
    refine ⟨slotsAlone_trans hfirst.1 hrest, fun m => (hslot m).trans ?_⟩
    by_cases hm : m = n
    · subst hm
      simp [hn, hfirst.slot_self]
    · simp [hm, hother m hm]

theorem ticked_free : ticked Slot.free = Slot.free := rfl

/-- R1: a slot that is not listed is FREE. -/
theorem slot_of_not_listed (h : n ∉ s.slotNumbers) : s.slot n = Slot.free := by
  by_contra hne
  exact h (List.mem_map_of_mem (mem_of_tableGet Slot.free s.slots n hne))

theorem nodup_slotNumbers (h : tableWf Slot.free s.slots = true) : s.slotNumbers.Nodup :=
  List.pairwise_map.2 (((tableWf_iff _ _).1 h).1.imp Nat.ne_of_lt)

/-- R104, R125: nothing matches at a slot where the statement says that nothing does. -/
theorem atMatch_eq_false
    (h : sl.state ≠ .free → sl.finalMade = false → sl.activePacing ≠ some (sl.pacingCounter + 1)) :
    sl.atMatch = false := by
  simpa [Slot.atMatch] using h

theorem atLimit_eq_false (h : sl.mark.phase ≠ .none → sl.mark.timer + 1 < sl.mark.limit) : sl.atLimit = false := by
  simpa [Slot.atLimit] using h

/-! ## A pacing match -/

theorem clearPacing_eq (sl : Slot) :
    sl.clearPacing = { sl with
      pacingCounter := 0, activePacing := sl.pendingPacing.elim sl.activePacing (fun p => some p)
      pendingPacing := none } := by
  simp only [Slot.clearPacing]
  cases sl.pendingPacing <;> rfl

theorem exec_pacingMatch (hs : s.inService = true) (hn : (s.slot n).state ≠ .free)
    (hf : (s.slot n).finalMade = false) (ha : (s.slot n).activePacing = some ((s.slot n).pacingCounter + 1)) :
    exec (.pacingMatch n k) s = .next ((s.noteCorrected k).pacingMatch n) := by
  have : (s.slot n).atMatch = true := by simp [Slot.atMatch, hn, hf, ha]
  simp [exec, execPacingMatch, hs, this]

/-- R105: with nothing filled a match makes nothing. -/
theorem pacingMatch_of_empty (h : (s.slot n).filled = []) :
    s.pacingMatch n = s.setSlot n (s.slot n).clearPacing := by
  simp [State.pacingMatch, Slot.clearPacing, h]

theorem pacingMatch_of_filled (h : (s.slot n).filled ≠ []) :
    s.pacingMatch n = (s.setSlot n (s.slot n).clearPacing).callBatch n := by
  simp [State.pacingMatch, Slot.clearPacing, h]

/-! ## The statement -/

/-- Settles O39: the tick slot by slot, nothing outside SERVICE, and the match by whether verdicts are filled. -/
theorem ticksCountAndMatch : Obligations.TicksCountAndMatch := by
  refine ⟨fun k s hd hp hwf hmatch hlimit => ?_, fun k s hd => ?_,
    fun k s n hd hp hn hf ha => ⟨fun he => ?_, fun he => ?_⟩⟩
  · obtain ⟨hrest, hslot⟩ := tickSlots_ticked (s := s.noteCorrected k) (nodup_slotNumbers hwf) fun n _ =>
      ⟨atMatch_eq_false (hmatch n), atLimit_eq_false (hlimit n)⟩
    refine ⟨_, if_pos (inService_iff.2 ⟨hd, hp⟩), hrest, fun n => (hslot n).trans ?_⟩
    split
    · rfl
    · next hn =>
      show s.slot n = ticked (s.slot n)
      rw [slot_of_not_listed hn, ticked_free]
  · exact if_neg (by simp [State.inService, hd])
  · rw [exec_pacingMatch (inService_iff.2 ⟨hd, hp⟩) hn hf ha, pacingMatch_of_empty (s := s.noteCorrected k) he,
      clearPacing_eq]
    rfl
  · refine ⟨_, exec_pacingMatch (inService_iff.2 ⟨hd, hp⟩) hn hf ha, ?_⟩
    rw [pacingMatch_of_filled (s := s.noteCorrected k) he, clearPacing_eq]
    exact callBatch_calls _ n

end Sys2Proof.Pacing

/-! PROOFS. Marks and their reports (chapter 7): MARK, SEAL and ACK REPORT have an equation per case. What a placed
report leaves is said once (`placeReport_tells`), and from it what the completion of a mark does (`Completes`,
`checkMark_completes`), beside the one close that a mark waits for (`checkMark_closes`); SEAL, the last apply and the
last DURABLE are reduced to these two. -/

namespace Sys2Proof.MarkReports

open Machine BranchStreams ContainerPlacement

variable {s : State} {r : Request} {rest : List Request} {n c g k : Nat} {sl : Slot} {sp : Span} {rep : Report}

/-! ## MARK -/

theorem takeMark_refused {reason : Reason} (hq : s.link.requests = r :: rest) (ha : s.streamCheck r = none)
    (hr : s.markReason r.stream = some reason) :
    takeMark r s = { s with link := s.replied r rest (.refused reason) .none } := by
  simp only [takeMark, ha, hr, refuse_eq hq]

theorem takeMark_taken (hq : s.link.requests = r :: rest) (ha : s.streamCheck r = none)
    (hr : s.markReason r.stream = none) :
    takeMark r s = { s with
      slots := (s.setSlot r.stream ((s.slot r.stream).openMark (field r.payload 0 4))).slots
      link := s.replied r rest .done (.mark (s.slot r.stream).nextOffset) } := by
  simp only [takeMark, ha, hr]
  rw [answer_eq (rest := rest) (by exact hq)]
  rfl

/-- R120: the three refusals in their order, and none. -/
theorem markReason_eq (s : State) (n : Nat) :
    let sl := s.slot n
    let busy := sl.mark.phase ≠ .none ∨ s.markerWaits n = true ∨ sl.ended ≠ none
    (busy → s.markReason n = some .markBusy) ∧
    (¬ busy → sl.waiting ≠ none → s.markReason n = some .slotHeld) ∧
    (¬ busy → sl.waiting = none → 8 ≤ sl.queue.length → s.markReason n = some .queueFull) ∧
    (¬ busy → sl.waiting = none → sl.queue.length < 8 → s.markReason n = none) := by
  intro sl busy
  have hreason : s.markReason n =
      if busy then some .markBusy
      else if sl.waiting ≠ none then some .slotHeld else if 8 ≤ sl.queue.length then some .queueFull else none := by
    simp only [State.markReason, Option.isSome_iff_ne_none]
    rfl
  rw [hreason]
  refine ⟨fun h => if_pos h, fun h hw => ?_, fun h hw hl => ?_, fun h hw hl => ?_⟩
  · rw [if_neg h, if_pos hw]
  · rw [if_neg h, if_neg (not_not.2 hw), if_pos hl]
  · rw [if_neg h, if_neg (not_not.2 hw), if_neg (Nat.not_le.2 hl)]

/-! ## SEAL -/

/-- R122: before the cut of its marker a mark neither closes nor completes. -/
theorem checkMark_of_uncut (hc : (s.slot n).mark.cut = false) : s.checkMark n = s := by
  obtain ⟨-, -, undue⟩ := checkMark_settled s n
  exact undue fun sp ⟨_, hcut, _⟩ => Bool.false_ne_true (hc.symm.trans hcut)

/-- R121: the slot once SEAL has stored the expected length. -/
def sealed (sl : Slot) (len : Nat) : Slot := { sl with mark := { sl.mark with phase := .sealing, sealLen := some len } }

/-- R121: the state once SEAL has been answered, before the mark is looked at. -/
def sealAnswered (s : State) (r : Request) (rest : List Request) : State :=
  { s with
    slots := (s.setSlot r.stream (sealed (s.slot r.stream) (field r.payload 4 6))).slots
    link := s.replied r rest .done .none }

theorem takeSeal_refused {reason : Reason} (hq : s.link.requests = r :: rest) (ha : s.streamCheck r = none)
    (hr : sealReason (s.slot r.stream) (field r.payload 0 4) = some reason) :
    takeSeal r s = { s with link := s.replied r rest (.refused reason) .none } := by
  simp only [takeSeal, ha, hr, refuse_eq hq]

theorem takeSeal_taken (hq : s.link.requests = r :: rest) (ha : s.streamCheck r = none)
    (hp : (s.slot r.stream).mark.phase = .open_) (hid : (s.slot r.stream).mark.id = some (field r.payload 0 4)) :
    takeSeal r s = (sealAnswered s r rest).checkMark r.stream := by
  have hr : sealReason (s.slot r.stream) (field r.payload 0 4) = none := by simp [sealReason, hp, hid]
  simp only [takeSeal, ha, hr]
  rw [answer_eq (rest := rest) (by exact hq)]
  rfl

theorem exec_seal (h : s.TakesNow .seal r rest) : exec (.seal k) s = .next (takeSeal r (s.noteCorrected k)) :=
  exec_of_takesNow (take := fun r s => takeSeal r (s.noteCorrected k)) rfl h

theorem slot_sealAnswered (m : Nat) : (sealAnswered s r rest).slot m =
    if m = r.stream then sealed (s.slot r.stream) (field r.payload 4 6) else s.slot m :=
  State.slot_setSlot s _ _ m

/-- Settles O35, by the order of MARK's checks and of SEAL's; a mark without its cut settles nothing. -/
theorem markOpensAndSealStores : Obligations.MarkOpensAndSealStores := by
  refine ⟨fun s r rest h hadd => ?_, fun k s r rest h hadd => ?_⟩
  · intro sl busy
    have hx : exec .mark s = .next (takeMark r s) := exec_of_takesNow rfl h
    have ha := streamCheck_eq_none hadd
    obtain ⟨hbusy, hheld, hfull, htaken⟩ := markReason_eq s r.stream
    refine ⟨fun hb => ?_, fun hb hw => ?_, fun hb hw hl => ?_, fun i hb hw hl hi => ?_⟩
    · rw [hx, takeMark_refused h.1 ha (hbusy hb)]
    · rw [hx, takeMark_refused h.1 ha (hheld hb hw)]
    · rw [hx, takeMark_refused h.1 ha (hfull hb hw hl)]
    · rw [hx, takeMark_taken h.1 ha (htaken hb hw hl), Slot.openMark, hi, Option.getD_some]
  · intro sl s'
    have hx : exec (.seal k) s = .next (takeSeal r s') := exec_seal h
    have ha : s'.streamCheck r = none := streamCheck_eq_none hadd
    have hq : s'.link.requests = r :: rest := h.1
    have hsl : s'.slot r.stream = sl := rfl
    refine ⟨fun hn => ?_, fun hp hid => ?_, fun hp hid hc => ?_⟩
    · rw [hx, takeSeal_refused hq ha (if_pos hn)]
      rfl
    · rw [hx, takeSeal_refused (reason := .badState) hq ha (by simp [sealReason, hsl, hp, hid])]
      rfl
    · rw [hx, takeSeal_taken hq ha hp hid, checkMark_of_uncut]
      · rfl
      · rw [slot_sealAnswered, if_pos rfl]
        exact hc

/-! ## A report placed -/

/-- R127, R128: the slot once a report of its stream has been placed, the notice queue having room or not. -/
def withReport (sl : Slot) (rep : Report) (room : Bool) : Slot :=
  if sl.reportSlot ≠ none then { sl with waiting := some rep }
  else if room = true then { sl with reportSlot := some (rep, 0) }
  else { sl with heldReport := some rep }

/-- R127: the notice that a report makes as it is placed. -/
def readyNotices (sl : Slot) (rep : Report) (room : Bool) : List Notice :=
  if sl.reportSlot = none ∧ room = true then [.reportReady rep.stream rep.branch rep.id rep.outcome] else []

section
variable {room : Bool}

@[simp] theorem withReport_mark : (withReport sl rep room).mark = sl.mark := by
  unfold withReport
  split_ifs <;> rfl

@[simp] theorem withReport_ended : (withReport sl rep room).ended = sl.ended := by
  unfold withReport
  split_ifs <;> rfl

@[simp] theorem withReport_reserved : (withReport sl rep room).reserved = sl.reserved := by
  unfold withReport
  split_ifs <;> rfl

@[simp] theorem withReport_queue : (withReport sl rep room).queue = sl.queue := by
  unfold withReport
  split_ifs <;> rfl

@[simp] theorem withReport_filled : (withReport sl rep room).filled = sl.filled := by
  unfold withReport
  split_ifs <;> rfl

end

/-- R127: with room a report enters the empty report slot. -/
theorem withReport_of_empty (h : sl.reportSlot = none) :
    withReport sl rep true = { sl with reportSlot := some (rep, 0) } := by simp [withReport, h]

/-- R127: with room a report is not held. -/
theorem withReport_of_room : (withReport sl rep true).reportSlot = some (rep, 0) ∨
    (withReport sl rep true).waiting = some rep := by
  by_cases h : sl.reportSlot = none
  · exact .inl (by rw [withReport_of_empty h])
  · exact .inr (by simp [withReport, h])

/-- R127, R128: a report stands in one of the two places, or is held. -/
theorem withReport_stands (sl : Slot) (rep : Report) (room : Bool) :
    (withReport sl rep room).reportSlot = some (rep, 0) ∨ (withReport sl rep room).waiting = some rep ∨
      (withReport sl rep room).heldReport = some rep := by
  unfold withReport
  split_ifs
  · exact .inr (.inl rfl)
  · exact .inl rfl
  · exact .inr (.inr rfl)

/-- R127, R142: beside its slot and its own notice, a placed report is seen by the branch monitor alone. -/
theorem placeReport_tells (s : State) (n : Nat) (rep : Report) :
    State.Told
      { s with
        slots := (s.setSlot n (withReport (s.slot n) rep s.hasRoom)).slots
        link := { s.link with notices := s.link.notices ++ readyNotices (s.slot n) rep s.hasRoom } }
      (s.placeReport n rep) := by
  cases hs : (s.slot n).reportSlot with
  | some x =>
    simp only [State.placeReport, withReport, readyNotices, hs, Option.isSome_some, if_true, ne_eq, reduceCtorEq,
      not_false_eq_true, false_and, if_false, List.append_nil]
    exact .refl _
  | none =>
    cases hr : s.hasRoom with
    | true =>
      simp only [State.placeReport, withReport, readyNotices, hs, hr, Option.isSome_none, ne_eq, not_true_eq_false,
        Bool.false_eq_true, if_false, and_self, if_true, State.enterReport]
      split
      · exact told_handOn _ _
      · exact .refl _
    | false =>
      simp only [State.placeReport, withReport, readyNotices, hs, hr, Option.isSome_none, ne_eq, not_true_eq_false,
        Bool.false_eq_true, and_false, if_false, List.append_nil]
      exact .refl _

/-! ## A mark completed -/

/-- R123: the slot once its mark has completed, before the report is placed. -/
def markDone (sl : Slot) : Slot := { sl with ended := none, mark := .none_ }

/-- R123, R127, R142: between the two states the mark of stream `n`, whose span is `sp`, has completed, and nothing but
its slot, the notices and the branch monitor has changed. -/
structure Completes (s : State) (n : Nat) (sp : Span) (t : State) : Prop where
  slot : t.slot n = withReport (markDone (s.slot n)) ((s.slot n).completion n sp) s.hasRoom
  others : ∀ m, m ≠ n → t.slot m = s.slot m
  notices : s.link.notices ++ readyNotices (s.slot n) ((s.slot n).completion n sp) s.hasRoom <+: t.link.notices
  requests : t.link.requests = s.link.requests
  index : t.index = s.index
  place : t.place = s.place
  lanes : t.lanes = s.lanes

/-- R123: the sealed mark with nothing left to wait for leaves its slot, and its report is placed. -/
theorem checkMark_of_due (due : (s.slot n).SealDue sp) (he : sp.deps = []) :
    s.checkMark n = (s.setSlot n (markDone (s.slot n))).placeReport n ((s.slot n).completion n sp) := by
  have hr := (sealReady_iff _).2 ⟨sp, due⟩
  obtain ⟨-, -, hended, -⟩ := due
  have hc : (s.slot n).completable = true := by simp [Slot.completable, hr, hended, he]
  simp only [State.checkMark, hr, if_true, hended, he, State.closeSealed, hc, State.completeMark, mkReport_completion]
  rfl

/-- R123: a sealed mark whose cut is made and whose span waits for nothing completes. -/
theorem checkMark_completes (due : (s.slot n).SealDue sp) (he : sp.deps = []) :
    Completes s n sp (s.checkMark n) := by
  have hslot : (s.setSlot n (markDone (s.slot n))).slot n = markDone (s.slot n) := by
    rw [State.slot_setSlot, if_pos rfl]
  obtain ⟨monitor, hs, more, ht, -⟩ :=
    placeReport_tells (s.setSlot n (markDone (s.slot n))) n ((s.slot n).completion n sp)
  rw [checkMark_of_due due he, ht, hslot]
  have hslots : ∀ m, ((s.setSlot n (markDone (s.slot n))).setSlot n
      (withReport (markDone (s.slot n)) ((s.slot n).completion n sp) s.hasRoom)).slot m =
      if m = n then withReport (markDone (s.slot n)) ((s.slot n).completion n sp) s.hasRoom else s.slot m := by
    intro m
    rw [State.slot_setSlot, State.slot_setSlot]
    split <;> rfl
  exact {
    slot := (hslots n).trans (if_pos rfl)
    others := fun m hm => (hslots m).trans (if_neg hm)
    notices := ⟨more, rfl⟩
    requests := rfl
    index := rfl
    place := rfl
    lanes := rfl }

/-- R124: the outcome of a completed mark whose span has ended and whose expected length is known. -/
theorem completion_outcome {e x : Nat} (he : sp.endOff = some e) (hx : sl.mark.sealLen = some x) :
    (sl.completion n sp).outcome =
      if sp.tainted = true then .tainted
      else if sl.lengthCheck = some true ∧ x ≠ e - sp.start then .mismatch else .clean := by
  by_cases h : x = e - sp.start <;> simp [Slot.completion, he, hx, h]

theorem completion_lengthMatch {e x : Nat} (he : sp.endOff = some e) (hx : sl.mark.sealLen = some x) :
    (sl.completion n sp).lengthMatch = if x = e - sp.start then .matched else .different := by
  simp [Slot.completion, he, hx]

/-! ## A seal's close -/

theorem container_fullMade {cause : FullCause} (m : Nat) : (s.fullMade c cause).container m =
    if m = c then { s.container c with state := .full } else s.container m :=
  State.container_setContainer s c { s.container c with state := .full } m

theorem openPlace_fullMade {cause : FullCause} (hg : (s.container c).group = some g) (m : Nat) :
    (s.fullMade c cause).openPlace m = if m = g then none else s.openPlace m := by
  have h := State.openPlace_setOpenPlace s g none m
  rw [State.fullMade, hg]
  exact h

theorem fullMade_eq {cause : FullCause} (hg : (s.container c).group = some g) :
    s.fullMade c cause = { s with
      place := { ((s.setContainer c { s.container c with state := .full }).setOpenPlace g none).place with
        nFull := s.place.nFull + 1 }
      link := s.link.noticed (.containerFull c g (s.container c).fill (s.container c).entries cause) } := by
  rw [← closeToFull_made, closeToFull_eq _ _ _ _ hg]

/-- R122, R87: the one OPEN container of the span's set is closed, and the mark waits for it. -/
theorem checkMark_closes (due : (s.slot n).SealDue sp) (hdeps : sp.deps = [c]) (ho : (s.container c).state = .open_)
    (hh : s.place.held = none) (hn : s.link.notices.length < 128) : s.checkMark n = s.fullMade c .seal := by
  have hr := (sealReady_iff _).2 ⟨sp, due⟩
  obtain ⟨-, -, hended, -⟩ := due
  have hclosed : s.closeSealed n sp.deps = s.fullMade c .seal := by
    simp only [hdeps, State.closeSealed, ho, hh, Option.isSome_none, Bool.false_eq_true, hasRoom_iff.2 hn, if_true,
      if_false]
    rfl
  have hslot : (s.fullMade c .seal).slot n = s.slot n := rfl
  have hwaits : (s.slot n).completable = false := by simp [Slot.completable, hended, hdeps]
  simp only [State.checkMark, hr, if_true, hended, hclosed, hslot, hwaits, Bool.false_eq_true, if_false]

/-- Settles O36: SEAL leaves what it answers, from which the mark closes its container or completes. -/
theorem sealClosesOrCompletes : Obligations.SealClosesOrCompletes := by
  refine ⟨fun k s r rest h hadd hp hid => ?_, fun k s r rest sp h hadd hd hp hid hc hended ho => ?_⟩
  · have ha : (s.noteCorrected k).streamCheck r = none := streamCheck_eq_none hadd
    refine ⟨_, (exec_seal h).trans (congrArg _ (takeSeal_taken h.1 ha hp hid)), ?_⟩
    exact checkMark_settled (sealAnswered (s.noteCorrected k) r rest) r.stream
  · intro sl sealedSlot s'
    have ha : s'.streamCheck r = none := streamCheck_eq_none hadd
    have hx : exec (.seal k) s = .next ((sealAnswered s' r rest).checkMark r.stream) :=
      (exec_seal h).trans (congrArg _ (takeSeal_taken h.1 ha hp hid))
    have hslot : (sealAnswered s' r rest).slot r.stream = sealedSlot :=
      (slot_sealAnswered r.stream).trans (if_pos rfl)
    have due : ((sealAnswered s' r rest).slot r.stream).SealDue sp := by
      rw [hslot]
      exact ⟨rfl, hc, hended, ho⟩
    refine ⟨fun c g hdeps hopen hg hh hn => ?_, fun hdeps => ?_⟩
    · rw [hx, checkMark_closes due hdeps hopen hh hn, fullMade_eq (by exact hg)]
      rfl
    · have done := checkMark_completes due hdeps
      have hdone := done.slot
      rw [hslot] at hdone
      refine ⟨_, sealedSlot.completion r.stream sp, hx, ?_, ?_, ?_, ?_, rfl, rfl, rfl, ho, ?_, done.index, done.place,
        done.lanes, fun m hm => (done.others m hm).trans ((slot_sealAnswered m).trans (if_neg hm)), fun ht => ?_,
        fun e he ht => ⟨?_, ?_, completion_lengthMatch he rfl⟩⟩
      · rw [hdone, withReport_mark]
        rfl
      · rw [hdone, withReport_ended]
        rfl
      · rw [hdone]
        exact withReport_stands _ _ _
      · exact congrArg (Option.getD · 0) hid
      · exact congrArg List.length hdeps
      · simp [Slot.completion, ht]
      · rw [completion_outcome he rfl, ht]
        simp [sealedSlot]
      · rw [completion_outcome he rfl, ht]
        simp [sealedSlot]

/-! ## A violation -/

theorem lengthMatchOf_eq (start : Nat) (endOff len : Option Nat) :
    lengthMatchOf start endOff len =
      if endOff = none ∨ len = none then .unknown
      else if len.getD 0 = endOff.getD 0 - start then .matched else .different := by
  cases endOff <;> cases len <;> simp [lengthMatchOf]

/-- R125, R126: the tick that brings the mark's timer to its limit is the violation. -/
theorem exec_markTimerLimit (hd : s.ctl.dev = .service) (hp : s.ctl.pinHeld = false)
    (hm : (s.slot n).mark.phase ≠ .none) (hl : (s.slot n).mark.limit ≤ (s.slot n).mark.timer + 1) :
    exec (.markTimerLimit n k) s = .next ((s.noteCorrected k).violate n) := by
  have hs : s.inService = true := inService_iff.2 ⟨hd, hp⟩
  have hlimit : (s.slot n).atLimit = true := by simp [Slot.atLimit, hm, hl]
  simp only [exec, execMarkTimerLimit, hs, hlimit, Bool.and_self, if_true]

theorem violate_of_span (h : (s.slot n).markSpan = some sp) :
    s.violate n = ((s.setSlot n (s.slot n).endMark).placeReport n
      (mkReport n (s.slot n) sp .violation (s.slot n).mark.limit)).abandonSeal n := by
  simp only [State.violate, h]

/-- R115: the mark's span is retired: the ended span once the cut is made, the current one before. -/
theorem endMark_eq (h : sl.markSpan = some sp) :
    sl.endMark = { sl with
      mark := ⟨.none, none, none, false, none, 0, 0⟩
      current := if sl.mark.cut = true then sl.current else some { sp with deps := [], retired := true }
      ended :=
        if sl.mark.cut = true then if sp.outstanding = 0 then none else some { sp with deps := [], retired := true }
        else sl.ended } := by
  unfold Slot.markSpan at h
  unfold Slot.endMark
  cases hc : sl.mark.cut with
  | true =>
    simp only [hc, if_true] at h ⊢
    rw [h, Option.bind_some, keepEnded]
    simp only [Span.retire, true_and]
    rfl
  | false =>
    simp only [hc, Bool.false_eq_true, if_false] at h ⊢
    rw [h]
    rfl

/-- Settles O38: the violation is the report placed over the slot that its mark has left, and then the seal's close
abandoned. -/
theorem timerLimitEndsInViolation : Obligations.TimerLimitEndsInViolation := by
  intro k s n b id sp hd hp hm hl hb hid sl rep ended current hspan ceased
  have hspan : sl.markSpan = some sp := (apply_ite (· = some sp) _ _ _).mpr hspan
  have hrep : mkReport n sl sp .violation sl.mark.limit = rep := by
    simp only [mkReport, lengthMatchOf_eq, sl, hb, hid, Option.getD_some]
    rfl
  refine ⟨_, _, (exec_markTimerLimit hd hp hm hl).trans (congrArg _ (violate_of_span hspan)), ?_,
    abandonSeal_abandoned _ n⟩
  have hslot : (s.noteCorrected k).slot n = sl := rfl
  rw [hslot, hrep, endMark_eq hspan]
  exact placeReport_placed _ n rep

/-! ## ACK REPORT and held reports -/

/-- R130: the state once ACK REPORT has discarded the report in the slot, none waiting behind it. -/
def emptied (s : State) (r : Request) (rest : List Request) (old : Report) : State :=
  { s with
    slots := (s.setSlot r.stream { s.slot r.stream with reportSlot := none }).slots
    link := s.replied r rest .done (.ackReport old.id false) }

/-- R130, R127: the state once the report that waited has moved into the slot and made its notice. -/
def movedIn (s : State) (r : Request) (rest : List Request) (old rep : Report) : State :=
  { s with
    slots := (s.setSlot r.stream { s.slot r.stream with reportSlot := some (rep, 0), waiting := none }).slots
    link := { s.replied r rest .done (.ackReport old.id true) with
      notices := s.link.notices ++ [.reportReady rep.stream rep.branch rep.id rep.outcome] } }

theorem takeAckReport_refused (hq : s.link.requests = r :: rest) (ha : s.streamCheck r = none)
    (hs : (s.slot r.stream).reportSlot = none) :
    takeAckReport r s = { s with link := s.replied r rest (.refused .noReport) .none } := by
  simp only [takeAckReport, ha, hs, refuse_eq hq]

theorem takeAckReport_of_room {old : Report} {age : Nat} (ha : s.streamCheck r = none)
    (hs : (s.slot r.stream).reportSlot = some (old, age))
    (hr : (s.slot r.stream).waiting = none ∨ s.link.notices.length < 128) :
    takeAckReport r s = s.ackReport r old := by
  have hwaits : ((s.slot r.stream).waiting.isSome && !s.hasRoom) = false := by
    rcases hr with hw | hn
    · rw [hw, Option.isSome_none, Bool.false_and]
    · rw [hasRoom_iff.2 hn, Bool.not_true, Bool.and_false]
  simp only [takeAckReport, ha, hs, hwaits, Bool.false_eq_true, if_false]

theorem ackReport_of_none {old : Report} (hq : s.link.requests = r :: rest) (hw : (s.slot r.stream).waiting = none) :
    s.ackReport r old = (emptied s r rest old).tryClose r.stream := by
  unfold State.ackReport
  dsimp only
  split
  · next h => cases hw.symm.trans h
  · rw [answer_eq (rest := rest) (by exact hq)]
    rfl

theorem takeAckReport_held {old : Report} {age : Nat} (ha : s.streamCheck r = none)
    (hs : (s.slot r.stream).reportSlot = some (old, age)) (hw : (s.slot r.stream).waiting = some rep)
    (hn : 128 ≤ s.link.notices.length) :
    takeAckReport r s = { s with marks := { s.marks with ackHeld := true } } := by
  simp only [takeAckReport, ha, hs, hw, hasRoom_eq_false.2 hn, Option.isSome_some, Bool.not_false, Bool.and_self,
    if_true]

/-- R127: a report enters the report slot of a slot that was changed before. -/
theorem enterReport_setSlot (hv : sl ≠ Slot.free) :
    State.HandedOn
      { s with
        slots := (s.setSlot n { sl with reportSlot := some (rep, 0) }).slots
        link := s.link.noticed (.reportReady rep.stream rep.branch rep.id rep.outcome) } rep
      ((s.setSlot n sl).enterReport n rep) := by
  have h := enterReport_handedOn (s.setSlot n sl) n rep
  rw [State.slot_setSlot, if_pos rfl, setSlot_setSlot _ _ _ hv] at h
  exact h

/-- R130: the slot while the report that waited moves from its place to the report slot. -/
def placesEmptied (sl : Slot) : Slot := { sl with reportSlot := none, waiting := none }

/-- R130, R127, R142: the report that waited moves in, with its notice, before the reply is made. -/
theorem ackReport_movedIn {old : Report} (hq : s.link.requests = r :: rest) (hfree : (s.slot r.stream).state ≠ .free)
    (hw : (s.slot r.stream).waiting = some rep) (hn : s.link.notices.length < 128) :
    (movedIn s r rest old rep).HandedOn rep (s.ackReport r old) := by
  have handed := enterReport_setSlot (s := s) (n := r.stream) (rep := rep) (sl := placesEmptied (s.slot r.stream))
    (Slot.ne_free hfree)
  obtain ⟨monitor, hs, more, ht, -⟩ :=
    enterReport_told (s.setSlot r.stream (placesEmptied (s.slot r.stream))) r.stream rep (hasRoom_iff.2 hn)
  have hq' : ((s.setSlot r.stream (placesEmptied (s.slot r.stream))).enterReport r.stream rep).link.requests =
      r :: rest := by
    rw [ht]
    exact hq
  have hp : ((s.setSlot r.stream (placesEmptied (s.slot r.stream))).enterReport r.stream rep).link.replies =
      s.link.replies := by
    rw [ht]
    rfl
  have hack : s.ackReport r old = ((s.setSlot r.stream (placesEmptied (s.slot r.stream))).enterReport r.stream
      rep).answer r .done (.ackReport old.id true) := by
    unfold State.ackReport
    dsimp only
    split
    · next rep' h =>
      obtain rfl := Option.some.inj (hw.symm.trans h)
      rfl
    · next h => cases hw.symm.trans h
  rw [hack, answer_eq hq', State.replied, hp]
  exact handedOn_answered handed _ _

theorem state_ne_free_of_addressed (h : s.Addressed r) : (s.slot r.stream).state ≠ .free := fun e => by
  obtain ⟨-, -, -, hk⟩ := h
  rw [e] at hk
  cases hk

/-- R16, R18: with its report places empty the stream waits for STREAM CLOSED alone. -/
def CloseLeft (sl : Slot) : Prop :=
  (sl.state = .draining ∨ sl.state = .aborting) ∧ sl.finalMade = true ∧ sl.madeBatch = none ∧ sl.heldReport = none

section emptied

variable {old : Report} {b : Nat}

theorem slot_emptied : (emptied s r rest old).slot r.stream = { s.slot r.stream with reportSlot := none } :=
  (State.slot_setSlot s _ _ _).trans (if_pos rfl)

theorem closeDue_emptied_iff (hw : (s.slot r.stream).waiting = none) :
    ((emptied s r rest old).slot r.stream).closeDue = true ↔ CloseLeft (s.slot r.stream) := by
  rw [slot_emptied, closeDue_iff]
  simp [CloseLeft, hw]

theorem tryClose_emptied_self (hw : (s.slot r.stream).waiting = none)
    (h : ¬ CloseLeft (s.slot r.stream) ∨ 128 ≤ s.link.notices.length) :
    (emptied s r rest old).tryClose r.stream = emptied s r rest old := by
  refine tryClose_eq_self _ _ (h.imp_left fun h => ?_)
  rwa [← Bool.not_eq_true, closeDue_emptied_iff hw]

variable (hs : s.inService = true) (hw : (s.slot r.stream).waiting = none) (hc : CloseLeft (s.slot r.stream))
  (hn : s.link.notices.length < 128) (hb : (s.slot r.stream).branch = some b)
include hs hw hc hn hb

theorem tryClose_emptied (hl : s.laneHolds r.stream = false) :
    (emptied s r rest old).tryClose r.stream = (emptied s r rest old).streamClosed r.stream b (s.slot r.stream) := by
  rw [tryClose_eq (emptied s r rest old) r.stream b hs ((closeDue_emptied_iff hw).2 hc) hn (by rwa [slot_emptied]) hl,
    slot_emptied]
  rfl

theorem tryClose_emptied_of_lane {l : Nat} {w : Work} (hl : l ∈ [1, 2, 3, 4]) (hwork : (s.lane l).work = some w)
    (hwn : w.slot = r.stream) (ho : ∀ m, m ≠ l → ∀ w', (s.lane m).work = some w' → w'.slot ≠ r.stream) :
    (emptied s r rest old).tryClose r.stream =
      { (emptied s r rest old).streamClosed r.stream b (s.slot r.stream) with
        lanes := (s.setLane l ⟨.idle, none⟩).lanes
        waitOrder := s.waitOrder.filter (fun m => m != l) } := by
  rw [tryClose_eq_of_lane (s := emptied s r rest old) hs ((closeDue_emptied_iff hw).2 hc) hn (by rwa [slot_emptied]) hl
    hwork hwn ho, slot_emptied]
  rfl

end emptied

/-- R128: a held ACK REPORT is taken when its notice can enter. -/
theorem exec_heldAckReport (hq : s.link.requests = r :: rest) (hk : r.kind = .ackReport) (hd : s.ctl.dev = .service)
    (hp : s.ctl.pinHeld = false) (hh : s.marks.ackHeld = true) :
    exec .heldAckReport s = .next (takeAckReport r { s with marks := { s.marks with ackHeld := false } }) := by
  have hs : s.inService = true := inService_iff.2 ⟨hd, hp⟩
  simp only [exec, execHeldAckReport, hq, hh, hs, hk, beq_self_eq_true, Bool.and_self, if_true]

theorem exec_heldReportEntry (hd : s.ctl.dev = .service) (hp : s.ctl.pinHeld = false)
    (hh : (s.slot n).heldReport = some rep) (hn : s.link.notices.length < 128) :
    exec (.heldReportEntry n) s =
      .next ((s.setSlot n { s.slot n with heldReport := none }).enterReport n rep) := by
  have hs : s.inService = true := inService_iff.2 ⟨hd, hp⟩
  simp only [exec, execHeldReportEntry, hh, hs, hasRoom_iff.2 hn, Bool.and_self, if_true]

/-- Settles O37, by what stands in the two report places: none, one report, or one with another waiting; a held ACK
REPORT is taken as one taken at once. -/
theorem reportsEnterTheirSlots : Obligations.ReportsEnterTheirSlots := by
  refine ⟨fun s r rest hadd => ?_, fun s n rep hd hp hfree hh hn => ?_⟩
  · intro n sl
    have ha := streamCheck_eq_none hadd
    have hexec (h : s.TakesNow .ackReport r rest) : exec .ackReport s = .next (takeAckReport r s) :=
      exec_of_takesNow rfl h
    refine ⟨fun h hs => ?_, fun old age h hs hw => ?_, fun old age rep hs hw => ?_⟩
    · rw [hexec h, takeAckReport_refused h.1 ha hs]
    · have hx : exec .ackReport s = .next ((emptied s r rest old).tryClose r.stream) := by
        rw [hexec h, takeAckReport_of_room ha hs (.inl hw), ackReport_of_none h.1 hw]
      have hservice : s.inService = true := inService_iff.2 ⟨hadd.1, pinHeld_of_takesNow h⟩
      refine ⟨fun hno => hx.trans (congrArg _ (tryClose_emptied_self hw hno)), fun b hc hn hb =>
        ⟨fun hl => hx.trans (congrArg _ (tryClose_emptied hservice hw hc hn hb hl)),
          fun l w h₁ h₂ hwork hwn ho => ?_⟩⟩
      have hl : l ∈ [1, 2, 3, 4] := by
        simp only [List.mem_cons, List.not_mem_nil, or_false]
        omega
      exact hx.trans (congrArg _ (tryClose_emptied_of_lane hservice hw hc hn hb hl hwork hwn ho))
    · have hfree := state_ne_free_of_addressed hadd
      refine ⟨fun h hn => ⟨_, hexec h, ?_⟩, fun h hn => ?_, fun hq hk hp hh hn =>
        ⟨_, exec_heldAckReport hq hk hadd.1 hp hh, ?_⟩⟩
      · rw [takeAckReport_of_room ha hs (.inr hn)]
        exact ackReport_movedIn h.1 hfree hw hn
      · rw [hexec h, takeAckReport_held ha hs hw hn]
      · rw [takeAckReport_of_room (s := { s with marks := { s.marks with ackHeld := false } }) ha hs (.inr hn)]
        exact ackReport_movedIn (s := { s with marks := { s.marks with ackHeld := false } }) hq hfree hw hn
  · exact ⟨_, exec_heldReportEntry hd hp hh hn,
      enterReport_setSlot (sl := { s.slot n with heldReport := none }) (Slot.ne_free hfree)⟩

/-! ## The DURABLE of the last container -/

theorem slot_durableAnswered (hq : s.link.requests = r :: rest) (he : (s.container c).entries ≠ 0) :
    (durableAnswered s r c).slot n = (s.slot n).mapSpans (Span.dropDep c) := by
  rw [durableAnswered_kept hq he]
  exact slot_dropFromSets

/-- R90: a live span that holds the container alone is left with an empty set. -/
theorem dropDep_single (hr : sp.retired = false) (hd : sp.deps = [c]) : sp.dropDep c = { sp with deps := [] } := by
  simp [dropDep_eq, hr, hd]

/-- R90, R123: the DURABLE of the one container that a sealed mark's span waits for, where no other mark is sealed. -/
theorem takeDurable_completes (hq : s.link.requests = r :: rest) (hd : s.ctl.dev = .service)
    (others : ∀ m, m ≠ n → (s.slot m).mark.phase ≠ .sealing)
    (hf : (s.container (field r.payload 0 2)).state = .full) (he : (s.container (field r.payload 0 2)).entries ≠ 0)
    (due : (s.slot n).SealDue sp) (hr : sp.retired = false) (hdeps : sp.deps = [field r.payload 0 2]) :
    Completes (durableAnswered s r (field r.payload 0 2)) n { sp with deps := [] } (takeDurable r s) := by
  have hslot (m : Nat) : (durableAnswered s r (field r.payload 0 2)).slot m =
      (s.slot m).mapSpans (Span.dropDep (field r.payload 0 2)) := slot_durableAnswered hq he
  obtain ⟨hp, hc, hended, ho⟩ := due
  have due' : ((durableAnswered s r (field r.payload 0 2)).slot n).SealDue { sp with deps := [] } := by
    rw [hslot]
    exact ⟨hp, hc, by rw [Slot.mapSpans, hended, Option.map_some, dropDep_single hr hdeps], ho⟩
  have hothers : ∀ m, m ≠ n → ((durableAnswered s r (field r.payload 0 2)).slot m).mark.phase ≠ .sealing :=
    fun m hm => by
      rw [hslot]
      exact others m hm
  have done := checkMark_completes due' rfl
  rw [takeDurable_taken hd hf (.inl he), checkMarks_of_single hothers]
  · exact done
  · intro m
    by_cases hm : m = n
    · rw [hm, done.slot, withReport_mark]
      simp [markDone, Mark.none_]
    · rw [done.others m hm]
      exact hothers m hm
  · exact mem_slotNumbers due'.1

/-- Settles O55: the container leaves every set, and the one sealed mark completes. -/
theorem durableCompletesTheCheckpoint : Obligations.DurableCompletesTheCheckpoint := by
  intro k s r rest n id x e sp h hd others hf he hp hc hid hx hended hend hr ho hdeps hs hn
  have hq : (s.noteCorrected k).link.requests = r :: rest := h.1
  have done := takeDurable_completes (s := s.noteCorrected k) hq hd others hf he ⟨hp, hc, hended, ho⟩ hr hdeps
  have hslot : (durableAnswered (s.noteCorrected k) r (field r.payload 0 2)).slot n =
      (s.slot n).mapSpans (Span.dropDep (field r.payload 0 2)) := slot_durableAnswered hq he
  have hkept := durableAnswered_kept hq he
  have hlink : (durableAnswered (s.noteCorrected k) r (field r.payload 0 2)).link =
      s.replied r rest .done (.durable .durable (s.spansHolding (field r.payload 0 2))) := by
    rw [hkept]
    rfl
  have hroom : (durableAnswered (s.noteCorrected k) r (field r.payload 0 2)).hasRoom = true :=
    hasRoom_iff.2 (by rw [hlink]; exact hn)
  have hreport : ((s.slot n).mapSpans (Span.dropDep (field r.payload 0 2))).reportSlot = none := hs
  obtain ⟨tslot, tothers, tnotices, trequests, tindex, -, tlanes⟩ := done
  rw [hslot, hroom, withReport_of_empty (by exact hs)] at tslot
  rw [hslot, hroom, hlink, readyNotices, if_pos ⟨hreport, rfl⟩] at tnotices
  refine ⟨_, ((s.slot n).mapSpans (Span.dropDep (field r.payload 0 2))).completion n { sp with deps := [] },
    exec_of_takesNow (take := fun r s => takeDurable r (s.noteCorrected k)) rfl h, ?_⟩
  have hid' : ((s.slot n).mapSpans (Span.dropDep (field r.payload 0 2))).mark.id.getD 0 = id :=
    congrArg (Option.getD · 0) hid
  refine ⟨congrArg Slot.reportSlot tslot, congrArg Slot.ended tslot, congrArg Slot.mark tslot,
    (congrArg Slot.queue tslot).trans rfl, (congrArg Slot.filled tslot).trans rfl, rfl, hid', rfl, hend, hx, rfl, rfl,
    rfl, completion_outcome hend hx, ?_, ?_, ?_, fun m hm => (tothers m hm).trans (slot_durableAnswered hq he), ?_⟩
  · rw [trequests, hlink]
    rfl
  · rw [tindex, hkept]
    rfl
  · rw [tlanes, hkept]
    rfl
  · rw [← hid']
    exact tnotices

/-! ## The apply of the last lookup -/

/-- The slot of an active stream whose mark is sealed and cut, with one lookup outstanding of the mark's span `sp`,
which is live and of that number; the fill by the lookup calls for no batch. -/
structure LastOfSeal (sl : Slot) (number : Nat) (sp : Span) : Prop where
  active : sl.state = .active
  sealing : sl.mark.phase = .sealing
  cut : sl.mark.cut = true
  below : ∃ th, sl.threshold = some th ∧ sl.filled.length + 1 < th
  ended : sl.ended = some sp
  named : sp.number = number
  last : sp.outstanding = 1
  live : sp.retired = false
  current : ∀ x, sl.current = some x → x.number ≠ number

/-- R70, R116: the verdict goes to the ended span alone. -/
theorem LastOfSeal.decided {number : Nat} (h : LastOfSeal sl number sp) (v : Verdict) (dep : Option Nat) :
    sl.decided number v dep = { sl with
      filled := sl.filled ++ [v]
      reserved := sl.reserved - 1
      totals := sl.totals.raised v.kind v.length
      ended := some (sp.decided v dep) } := by
  have hcurrent : sl.current.map (fun x => if x.number = number then x.decided v dep else x) = sl.current := by
    cases hc : sl.current with
    | none => rfl
    | some x => rw [Option.map_some, if_neg (h.current x hc)]
  have hlive : (sp.decided v dep).retired = false := by simp [Span.decided, h.live]
  simp only [Slot.decided, hcurrent, h.ended, Option.map_some, if_pos h.named, Option.filter_some, hlive, true_or,
    decide_true, if_true]

theorem decided_new {q : QLookup} {at_ : Option (Nat × Nat × ContState)} (hr : sp.retired = false)
    (hdeps : sp.deps = [] ∨ sp.deps = [c]) :
    sp.decided (verdictOf q .new at_) (some c) = { sp with
      outstanding := sp.outstanding - 1
      deps := [c]
      counters := { sp.counters with
        bytes := sp.counters.bytes + q.lk.length, chunks := sp.counters.chunks + 1
        newChunks := sp.counters.newChunks + 1, newBytes := sp.counters.newBytes + q.lk.length } } := by
  rcases hdeps with hdeps | hdeps <;> simp [Span.decided, hr, hdeps, verdictOf, Counters.raised]

theorem decided_pass {q : QLookup} (hr : sp.retired = false) :
    sp.decided (verdictOf q .pass none) none = { sp with
      outstanding := sp.outstanding - 1
      counters := { sp.counters with
        bytes := sp.counters.bytes + q.lk.length, chunks := sp.counters.chunks + 1
        passChunks := sp.counters.passChunks + 1, passBytes := sp.counters.passBytes + q.lk.length } } := by
  simp [Span.decided, hr, verdictOf, Counters.raised]

/-- R65, R70: the state once the lookup has left the queue and its verdict has been handed to the slot, before a batch
is called for and the mark is looked at. -/
def decidedIn (s : State) (q : QLookup) (v : Verdict) (dep : Option Nat) : State :=
  (s.popLookup q).setSlot q.lk.slot ((s.slot q.lk.slot).decided q.lk.span v dep)

section last

variable {q : QLookup} {v : Verdict} {dep : Option Nat}

theorem slot_decidedIn (m : Nat) : (decidedIn s q v dep).slot m =
    if m = q.lk.slot then (s.slot q.lk.slot).decided q.lk.span v dep else s.slot m :=
  State.slot_setSlot (s.popLookup q) _ _ m

variable (h : LastOfSeal (s.slot q.lk.slot) q.lk.span sp)
include h

theorem slot_decidedIn_of_last : (decidedIn s q v dep).slot q.lk.slot =
    { s.slot q.lk.slot with
      filled := (s.slot q.lk.slot).filled ++ [v]
      reserved := (s.slot q.lk.slot).reserved - 1
      totals := (s.slot q.lk.slot).totals.raised v.kind v.length
      ended := some (sp.decided v dep) } := by
  rw [slot_decidedIn, if_pos rfl, h.decided]

theorem sealDue_decidedIn : ((decidedIn s q v dep).slot q.lk.slot).SealDue (sp.decided v dep) := by
  rw [slot_decidedIn_of_last h]
  exact ⟨h.sealing, h.cut, rfl, by simp [Span.decided, h.live, h.last]⟩

/-- R106, R110, R122: the fill calls for no batch, so that the apply hands on to the mark at once. -/
theorem finishApply_of_last : s.finishApply q v dep = (decidedIn s q v dep).checkMark q.lk.slot := by
  obtain ⟨th, hth, hbelow⟩ := h.below
  have hfill : (decidedIn s q v dep).afterFill q.lk.slot = decidedIn s q v dep := by
    refine if_neg ?_
    rw [not_lastBatchDue_of_active _ _ (by rw [slot_decidedIn_of_last h]; exact h.active), slot_decidedIn_of_last h]
    simp only [Slot.atThreshold, hth, List.length_append, List.length_singleton, Bool.false_or, decide_eq_true_eq]
    omega
  rw [State.finishApply, applied_decided]
  exact congrArg (State.checkMark · q.lk.slot) hfill

end last

section apply

variable {q : QLookup} {later : List QLookup} {count : Nat}

/-- R65, R68: the head that found nothing applies as a miss. -/
theorem exec_lookupApply_miss (hd : s.ctl.dev = .service) (hp : s.ctl.pinHeld = false)
    (hl : s.index.lookups = q :: later) (hq : q.state = .read) (hr : q.result = some ⟨none, count⟩)
    (hh : s.place.held = none) : exec (.lookupApply k) s = .next ((s.noteCorrected k).applyMiss q count) := by
  have hs : s.inService = true := inService_iff.2 ⟨hd, hp⟩
  have hl' : (s.noteCorrected k).index.lookups = q :: later := hl
  simp only [exec, execLookupApply, hs, hl, hq, hh, beq_self_eq_true, Bool.true_and, bne_iff_ne, ne_eq, reduceCtorEq,
    not_false_eq_true, if_true, State.applyHead, hl', hr]

/-- R68: without room in the index the verdict is PASS. -/
theorem applyMiss_pass (hc : 8 ≤ count) (hsp : 65536 ≤ s.index.spillCount) :
    s.applyMiss q count = s.finishApply q (verdictOf q .pass none) none := by
  have hroom : s.indexRoom count = false := by simp [State.indexRoom, hc, hsp]
  simp only [State.applyMiss, hroom, Bool.false_eq_true, if_false]

/-- R68, R82: with room in the index and in the group's OPEN container the verdict is NEW. -/
theorem applyMiss_new (hc : count < 8) (hh : s.place.held = none) (hg : (s.slot q.lk.slot).group = some g)
    (ho : s.openPlace g = some c) (hfit : (s.container c).fill + q.lk.length ≤ (s.container c).capacity) :
    s.applyMiss q count = s.applyNew q count c := by
  have hroom : s.indexRoom count = true := by simp [State.indexRoom, hc]
  simp only [State.applyMiss, hroom, if_true, hh, Option.isSome_none, Bool.false_eq_true, if_false, State.placeChunk,
    hg, Option.getD_some, ho, hfit]

/-- R82, R68: the state once the chunk of the lookup has been placed in the container, the index being `x` with the
chunk's entry. -/
def chunkPlaced (s : State) (q : QLookup) (c : Nat) (x : Index) : State :=
  { s.setContainer c { s.container c with
      fill := (s.container c).fill + q.lk.length
      entries := (s.container c).entries + 1
      live := (s.container c).live + q.lk.length } with index := x }

theorem container_chunkPlaced (x : Index) (m : Nat) : (chunkPlaced s q c x).container m =
    if m = c then { s.container c with
      fill := (s.container c).fill + q.lk.length
      entries := (s.container c).entries + 1
      live := (s.container c).live + q.lk.length }
    else s.container m :=
  State.container_setContainer s c _ m

/-- Inserting the entry changes the index alone. -/
theorem insertEntry_eq (e : IndexEntry) :
    s.insertEntry e count = { s with index := (s.insertEntry e count).index } := by
  unfold State.insertEntry
  split <;> rfl

theorem applyNew_eq :
    ∃ x at_, s.applyNew q count c = (chunkPlaced s q c x).finishApply q (verdictOf q .new at_) (some c) := by
  rw [State.applyNew, insertEntry_eq]
  exact ⟨_, _, rfl⟩

end apply

section settled

variable {q : QLookup} {count : Nat}

/-- R122, R87: the NEW chunk has joined the span's set, whose OPEN container is closed at once. -/
theorem applyMiss_new_closes (h : LastOfSeal (s.slot q.lk.slot) q.lk.span sp) (hc : count < 8)
    (hh : s.place.held = none) (hn : s.link.notices.length < 128) (hg : (s.slot q.lk.slot).group = some g)
    (hp : s.openPlace g = some c) (hfit : (s.container c).fill + q.lk.length ≤ (s.container c).capacity)
    (hopen : (s.container c).state = .open_) (hdeps : sp.deps = [] ∨ sp.deps = [c]) :
    ∃ x at_, s.applyMiss q count =
      (decidedIn (chunkPlaced s q c x) q (verdictOf q .new at_) (some c)).fullMade c .seal := by
  obtain ⟨x, at_, hx⟩ := applyNew_eq (s := s) (q := q) (count := count) (c := c)
  have hplaced : LastOfSeal ((chunkPlaced s q c x).slot q.lk.slot) q.lk.span sp := h
  have hstate : ((chunkPlaced s q c x).container c).state = .open_ :=
    (congrArg Container.state ((State.container_setContainer s c _ c).trans (if_pos rfl))).trans hopen
  refine ⟨x, at_, ?_⟩
  rw [applyMiss_new hc hh hg hp hfit, hx, finishApply_of_last hplaced]
  exact checkMark_closes (sealDue_decidedIn hplaced) (by rw [decided_new h.live hdeps]) hstate hh hn

/-- R122, R87: after a PASS the OPEN container of the span's set is closed. -/
theorem applyMiss_pass_closes (h : LastOfSeal (s.slot q.lk.slot) q.lk.span sp) (hc : 8 ≤ count)
    (hsp : 65536 ≤ s.index.spillCount) (hh : s.place.held = none) (hn : s.link.notices.length < 128)
    (hopen : (s.container c).state = .open_) (hdeps : sp.deps = [c]) :
    s.applyMiss q count = (decidedIn s q (verdictOf q .pass none) none).fullMade c .seal := by
  rw [applyMiss_pass hc hsp, finishApply_of_last h]
  exact checkMark_closes (sealDue_decidedIn h) (by rw [decided_pass h.live]; exact hdeps) hopen hh hn

/-- R123: after a PASS with an empty set the mark completes. -/
theorem applyMiss_pass_completes (h : LastOfSeal (s.slot q.lk.slot) q.lk.span sp) (hc : 8 ≤ count)
    (hsp : 65536 ≤ s.index.spillCount) (hdeps : sp.deps = []) :
    Completes (decidedIn s q (verdictOf q .pass none) none) q.lk.slot (sp.decided (verdictOf q .pass none) none)
      (s.applyMiss q count) := by
  rw [applyMiss_pass hc hsp, finishApply_of_last h]
  exact checkMark_completes (sealDue_decidedIn h) (by rw [decided_pass h.live]; exact hdeps)

end settled

/-- Settles O50, by the verdict of the last lookup and by what then stands in the span's set. -/
theorem lastApplySettlesTheSeal : Obligations.LastApplySettlesTheSeal := by
  intro k s q later count th g sp hd hp hl hq hr hh hn n sl hact hseal hcut hg hth hbelow hended hnum ho hret hcur
    len counted passed
  have h : LastOfSeal sl q.lk.span sp := ⟨hact, hseal, hcut, ⟨th, hth, hbelow⟩, hended, hnum, ho, hret, hcur⟩
  have hx := exec_lookupApply_miss (k := k) hd hp hl hq hr hh
  refine ⟨fun c hc hpl hopen hcg hfit hdeps => ?_,
    fun hc hsp => ⟨fun c hdeps hopen hcg => ?_, fun hdeps e x id he hlen hid => ?_⟩⟩
  · obtain ⟨x, at_, hnew⟩ := applyMiss_new_closes (s := s.noteCorrected k) h hc hh hn hg hpl hfit hopen hdeps
    have hs := slot_decidedIn_of_last (s := chunkPlaced (s.noteCorrected k) q c x) (v := verdictOf q .new at_)
      (dep := some c) h
    have hplaced : (decidedIn (chunkPlaced (s.noteCorrected k) q c x) q (verdictOf q .new at_) (some c)).container c =
        { s.container c with
          fill := (s.container c).fill + len, entries := (s.container c).entries + 1
          live := (s.container c).live + len } := (container_chunkPlaced x c).trans (if_pos rfl)
    have hgroup := (congrArg Container.group hplaced).trans hcg
    refine ⟨_, hx.trans (congrArg _ hnew), (openPlace_fullMade hgroup g).trans (if_pos rfl), ?_, ?_, rfl, hh,
      (congrArg Slot.mark hs).trans rfl, (congrArg Slot.reserved hs).trans rfl, (congrArg Slot.ended hs).trans ?_,
      fun m hm => (slot_decidedIn m).trans (if_neg hm),
      fun d hd => (container_fullMade d).trans ((if_neg hd).trans ((container_chunkPlaced x d).trans (if_neg hd))),
      rfl, rfl⟩
    · exact (container_fullMade c).trans ((if_pos rfl).trans (by rw [hplaced]))
    · refine (congrArg State.link (fullMade_eq hgroup)).trans ?_
      rw [hplaced]
      rfl
    · rw [decided_new hret hdeps, ho]
  · refine ⟨_, hx.trans (congrArg _ (applyMiss_pass_closes h hc hsp hh hn hopen hdeps)), ?_⟩
    have hs := slot_decidedIn_of_last (s := s.noteCorrected k) (v := verdictOf q .pass none) (dep := none) h
    rw [fullMade_eq (by exact hcg)]
    refine ⟨rfl, rfl, (congrArg Slot.mark hs).trans rfl, (congrArg Slot.ended hs).trans ?_,
      fun m hm => (slot_decidedIn m).trans (if_neg hm), rfl, rfl⟩
    rw [decided_pass hret, ho]
  · have done := applyMiss_pass_completes (s := s.noteCorrected k) h hc hsp hdeps
    have hs := slot_decidedIn_of_last (s := s.noteCorrected k) (v := verdictOf q .pass none) (dep := none) h
    have hroom : (decidedIn (s.noteCorrected k) q (verdictOf q .pass none) none).hasRoom = true := hasRoom_iff.2 hn
    obtain ⟨tslot, tothers, tnotices, -, -, tplace, tlanes⟩ := done
    have hspan : sp.decided (verdictOf q .pass none) none = { sp with outstanding := 0, counters := passed } := by
      rw [decided_pass hret, ho]
    rw [hs, hspan, hroom] at tslot tnotices
    have hid' : (sl.completion n { sp with outstanding := 0, counters := passed }).id = id :=
      congrArg (Option.getD · 0) hid
    refine ⟨_, sl.completion n { sp with outstanding := 0, counters := passed }, hx,
      (congrArg Slot.ended tslot).trans withReport_ended, (congrArg Slot.mark tslot).trans withReport_mark, ?_,
      (congrArg Slot.reserved tslot).trans withReport_reserved, rfl, hid', rfl, rfl, he, hlen, rfl,
      congrArg List.length hdeps, rfl, completion_outcome he hlen, tplace,
      fun m hm => (tothers m hm).trans ((slot_decidedIn m).trans (if_neg hm)), tlanes, ?_⟩
    · rw [tslot]
      exact withReport_of_room
    · simp only [readyNotices, and_true] at tnotices
      rw [← hid']
      exact tnotices

end Sys2Proof.MarkReports

/-! PROOFS. Releases, holds and the change monitor (chapter 8). The requests RELEASE, CLEAR HOLD and RESET BASELINE
have an equation per case. An item that has been dealt with leaves the release queue in one way (`finishItem_goesOn`),
to which each case of the release operation is reduced; and a report that enters its slot, or a held SURGE, is what the
branch monitor's laws say of the hand-ons it takes. -/

namespace Sys2Proof.ReleasesAndMonitor

open Machine BranchStreams ContainerPlacement MarkReports

variable {s : State} {r : Request} {rest : List Request} {k b c n : Nat} {it : ReleaseItem} {later : List ReleaseItem}
  {t : Tally} {e : IndexEntry} {i : Bool}

/-! ## Requests outside SERVICE -/

/-- The branch monitor's takings that change the state. -/
def branchTakings : List (Request → State → State) := [takeRelease, takeClearHold, takeResetBaseline]

theorem take_outsideService {take : Request → State → State} (ht : take ∈ branchTakings)
    (hd : s.ctl.dev ≠ .service) : take r s = s.refuse r .badState := by
  simp only [branchTakings, List.mem_cons, List.not_mem_nil, or_false] at ht
  rcases ht with rfl | rfl | rfl
  · exact if_pos hd
  · exact if_pos hd
  · exact if_pos hd

/-- R135, R165: outside SERVICE their rows refuse. -/
theorem exec_outsideService {x : Instr} {kind : ReqKind} {take : Request → State → State}
    (hx : rowTaking x = some (kind, take)) (ht : take ∈ branchTakings) (hd : s.ctl.dev ≠ .service)
    (h : s.TakesNow kind r rest) : exec x s = .next { s with link := s.replied r rest (.refused .badState) .none } := by
  rw [exec_of_takesNow hx h, take_outsideService ht hd, refuse_eq h.1]

/-! ## CLEAR HOLD -/

theorem takeClearHold_taken (hq : s.link.requests = r :: rest) (hd : s.ctl.dev = .service) :
    takeClearHold r s = { s with
      monitor := (s.setBranch (field r.payload 0 1) { s.branch (field r.payload 0 1) with hold := false }).monitor
      link := s.replied r rest .done (.clearHold (s.branch (field r.payload 0 1)).hold) } := by
  rw [takeClearHold, if_neg (not_not.2 hd), answer_eq (rest := rest) (by exact hq)]
  rfl

/-! ## RESET BASELINE -/

/-- R148: the state once the branches named are back to COLD. -/
def baselinesReset (s : State) (names : List Nat) : State :=
  names.foldl (fun s n => s.setBranch n (s.branch n).resetBaseline) s

theorem baselinesReset_cons (names : List Nat) :
    baselinesReset s (n :: names) = baselinesReset (s.setBranch n (s.branch n).resetBaseline) names := rfl

/-- R148: only the branch records change. -/
theorem baselinesReset_eq (names : List Nat) : baselinesReset s names =
    { s with monitor := { s.monitor with branches := (baselinesReset s names).monitor.branches } } := by
  induction names generalizing s with
  | nil => rfl
  | cons n names ih => rw [baselinesReset_cons, ih]; rfl

/-- R148: and of those the named ones alone; naming a branch again would change nothing more. -/
theorem branch_baselinesReset (names : List Nat) (m : Nat) : (baselinesReset s names).branch m =
    if m ∈ names then (s.branch m).resetBaseline else s.branch m := by
  induction names generalizing s with
  | nil => rfl
  | cons n names ih =>
    rw [baselinesReset_cons, ih, State.branch_setBranch]
    by_cases hn : m = n
    · subst hn
      simp [Branch.resetBaseline]
    · simp [hn]

theorem takeResetBaseline_refused (hq : s.link.requests = r :: rest) (hd : s.ctl.dev = .service)
    (h : baselineList r.payload = [] ∨ ¬ (baselineList r.payload).Nodup) :
    takeResetBaseline r s = { s with link := s.replied r rest (.refused .range) .none } := by
  rw [takeResetBaseline, if_neg (not_not.2 hd)]
  exact (if_pos h).trans (refuse_eq hq _)

theorem takeResetBaseline_taken (hq : s.link.requests = r :: rest) (hd : s.ctl.dev = .service)
    (hne : baselineList r.payload ≠ []) (hnd : (baselineList r.payload).Nodup) :
    takeResetBaseline r s = { baselinesReset s (baselineList r.payload) with
      link := s.replied r rest .done (.resetBaseline (baselineList r.payload).length) } := by
  have h : ¬ (baselineList r.payload = [] ∨ ¬ (baselineList r.payload).Nodup) := by simp [hne, hnd]
  have ha : takeResetBaseline r s = (baselinesReset s (baselineList r.payload)).answer r .done
      (.resetBaseline (baselineList r.payload).length) := by
    rw [takeResetBaseline, if_neg (not_not.2 hd)]
    exact if_neg h
  rw [ha, baselinesReset_eq, answer_eq (rest := rest) (by exact hq)]
  rfl

/-- Settles O60, by the equations of the two takings; what RESET BASELINE leaves of each branch is by induction on the
names. -/
theorem holdsAndBaselinesAreReset : Obligations.HoldsAndBaselinesAreReset := by
  intro s r rest
  refine ⟨fun hd c kind hrow h => ?_, fun hd h => ?_, fun hd h => ⟨fun hr => ?_, fun hne hnd => ?_⟩⟩
  · simp only [List.mem_cons, Prod.mk.injEq, List.not_mem_nil, or_false] at hrow
    rcases hrow with ⟨rfl, rfl⟩ | ⟨rfl, rfl⟩
    · exact exec_outsideService rfl (by simp [branchTakings]) hd h
    · exact exec_outsideService rfl (by simp [branchTakings]) hd h
  · rw [exec_of_takesNow rfl h, takeClearHold_taken h.1 hd]
  · rw [exec_of_takesNow rfl h, takeResetBaseline_refused h.1 hd hr]
  · refine ⟨_, exec_of_takesNow rfl h, ?_, fun n => ?_⟩
    · rw [takeResetBaseline_taken h.1 hd hne hnd, baselinesReset_eq]
      rfl
    · rw [takeResetBaseline_taken h.1 hd hne hnd]
      exact branch_baselinesReset _ n

/-! ## RELEASE -/

section release

variable (hq : s.link.requests = r :: rest) (hd : s.ctl.dev = .service)
include hq hd

theorem takeRelease_range (hc : field r.payload 1 1 = 0 ∨ 64 < field r.payload 1 1) :
    takeRelease r s = { s with link := s.replied r rest (.refused .range) .none } := by
  simp only [takeRelease, hd, hc, ne_eq, not_true_eq_false, if_false, if_true, refuse_eq hq]

variable (h1 : 1 ≤ field r.payload 1 1) (h64 : field r.payload 1 1 ≤ 64)
include h1 h64

theorem takeRelease_held (hh : (s.branch (field r.payload 0 1)).hold = true) :
    takeRelease r s = { s with link := s.replied r rest (.refused .held) .none } := by
  have hc : ¬ (field r.payload 1 1 = 0 ∨ 64 < field r.payload 1 1) := by omega
  simp only [takeRelease, hd, hc, hh, ne_eq, not_true_eq_false, if_false, if_true, refuse_eq hq]

theorem takeRelease_full (hh : (s.branch (field r.payload 0 1)).hold = false)
    (hf : 256 < s.index.releases.length + field r.payload 1 1) :
    takeRelease r s = { s with link := s.replied r rest (.refused .queueFull) .none } := by
  have hc : ¬ (field r.payload 1 1 = 0 ∨ 64 < field r.payload 1 1) := by omega
  simp only [takeRelease, hd, hc, hh, hf, Config.releaseMax, ne_eq, not_true_eq_false, Bool.false_eq_true, if_false,
    if_true, refuse_eq hq]

/-- R136, R137: all the items join the queue, and its head goes on. -/
theorem takeRelease_taken (hh : (s.branch (field r.payload 0 1)).hold = false)
    (hf : s.index.releases.length + field r.payload 1 1 ≤ 256) :
    takeRelease r s =
      State.advanceReleases { s with link := s.replied r rest .done (.release (field r.payload 1 1)) }
        (s.index.releases ++
          releaseItems (field r.payload 0 1) r.tag (field r.payload 1 1) (r.payload.drop 2)) := by
  have hc : ¬ (field r.payload 1 1 = 0 ∨ 64 < field r.payload 1 1) := by omega
  simp only [takeRelease, hd, hc, hh, Nat.not_lt.2 hf, Config.releaseMax, ne_eq, not_true_eq_false,
    Bool.false_eq_true, if_false, answer_eq hq]

end release

/-- Settles O59: the refusals in their order, and then the queue goes on from its head. -/
theorem releaseQueuesAllOrNothing : Obligations.ReleaseQueuesAllOrNothing := by
  intro s r rest h branch count
  have hx : exec .release s = .next (takeRelease r s) := exec_of_takesNow rfl h
  refine ⟨fun hd => ?_, fun hd hc => ?_, fun hd h1 h64 => ⟨fun hh => ?_, fun hh hf => ?_, fun hh hf => ?_⟩⟩
  · exact exec_outsideService rfl (by simp [branchTakings]) hd h
  · exact hx.trans (congrArg _ (takeRelease_range h.1 hd hc))
  · exact hx.trans (congrArg _ (takeRelease_held h.1 hd h1 h64 hh))
  · exact hx.trans (congrArg _ (takeRelease_full h.1 hd h1 h64 hh hf))
  · exact ⟨_, hx.trans (congrArg _ (takeRelease_taken h.1 hd h1 h64 hh hf)), advanceReleases_goesOn _ _⟩

/-! ## Samples -/

/-- R146: a held SURGE enters, and the monitor is free to go on. -/
def surgeEntered (s : State) (g : Surge) : State :=
  { s with
    marks := { s.marks with handOns := [] }
    monitor :=
      { surgeHeld := none
        branches := (s.setBranch g.branch
          { s.branch g.branch with
            hold := true, surges := min 4294967295 ((s.branch g.branch).surges + 1) }).monitor.branches }
    link := s.link.noticed (.surge g.branch g.sample g.baseline g.margin) }

theorem exec_heldSurgeEntry {g : Surge} (order : List Nat) (hd : s.ctl.dev = .service) (hp : s.ctl.pinHeld = false)
    (hg : s.monitor.surgeHeld = some g) (hn : s.link.notices.length < 128) :
    exec (.heldSurgeEntry order) s =
      .next ((surgeEntered s g).takeHandOns (orderHandOns order s.marks.handOns)) := by
  simp only [exec, execHeldSurgeEntry, hg, inService_iff.2 ⟨hd, hp⟩, hasRoom_iff.2 hn, Bool.and_self, if_true]
  rfl

/-- R142: what the monitor does with the hand-ons that waited, in the order they are given. -/
theorem surgeEntered_taken (g : Surge) (hs : List HandOn) :
    (surgeEntered s g).HandOnsTaken hs ((surgeEntered s g).takeHandOns hs) := takeHandOns_taken _ hs rfl

/-- R127, R142: a CLEAN report that enters its slot while the monitor is free is sampled at once. -/
theorem exec_heldReportEntry_sampled {rep : Report} (hd : s.ctl.dev = .service) (hp : s.ctl.pinHeld = false)
    (hfree : (s.slot n).state ≠ .free) (hh : (s.slot n).heldReport = some rep) (hn : s.link.notices.length < 128)
    (hc : rep.outcome = .clean) (hs : s.monitor.surgeHeld = none) (hw : s.marks.handOns = []) :
    ∃ t, exec (.heldReportEntry n) s = .next t ∧
      State.Sampled
        { s with
          slots := (s.setSlot n { s.slot n with heldReport := none, reportSlot := some (rep, 0) }).slots
          link := s.link.noticed (.reportReady rep.stream rep.branch rep.id .clean) }
        rep.branch rep.counters.bytes (rep.counters.newBytes + rep.counters.passBytes) t := by
  obtain ⟨-, sampled, -⟩ :=
    enterReport_setSlot (s := s) (n := n) (rep := rep) (sl := { s.slot n with heldReport := none }) (Slot.ne_free hfree)
  exact ⟨_, exec_heldReportEntry hd hp hh hn, hc ▸ sampled hc hs hw⟩

/-- Settles O58: the report is sampled as it enters; and a held SURGE enters before the hand-ons that waited are taken
in their order. -/
theorem cleanReportsAreSampled : Obligations.CleanReportsAreSampled := by
  refine ⟨fun s n rep hd hp hfree hh hn hc hs hw => ?_, fun order s g hd hp hg hn => ?_⟩
  · intro bytes fresh sample b fed sampled entered
    obtain ⟨t, hx, small, large⟩ :=
      exec_heldReportEntry_sampled hd hp hfree hh (Nat.lt_succ_of_lt hn) hc hs hw
    have quiet : ∀ b' : Branch, t = { s with
        slots := (s.setSlot n { s.slot n with heldReport := none, reportSlot := some (rep, 0) }).slots
        monitor := (s.setBranch rep.branch b').monitor
        link := s.link.noticed (.reportReady rep.stream rep.branch rep.id .clean) } → entered b' [] := by
      rintro b' rfl
      refine hx.trans ?_
      simp only [List.append_nil]
      rfl
    refine ⟨fun hb => quiet _ (small hb), fun hb => ?_⟩
    obtain ⟨cold, warmed, calm, surges, -⟩ := large hb
    refine ⟨fun hph hcold => quiet _ (cold hph (Nat.ne_of_lt hcold)), fun hph hcold => quiet _ (warmed hph hcold),
      fun m hph hm => ?_⟩
    have hmargin : b.margin.getD 0 = m := congrArg (Option.getD · 0) hm
    refine ⟨fun hle => quiet _ (calm hph (hmargin.symm ▸ hle)), fun hlt => hx.trans (congrArg _ ?_)⟩
    rw [surges hph (hmargin.symm ▸ hlt) (by simpa [Link.noticed] using Nat.succ_lt_succ hn)]
    simp only [← hmargin]
    rfl
  · intro entered
    have hx := exec_heldSurgeEntry order hd hp hg hn
    refine ⟨fun hw => ?_, ⟨_, _, orderHandOns_perm order _, hx, surgeEntered_taken g _⟩, fun hs hperm hnd ho => ?_⟩
    · have hnil : orderHandOns order s.marks.handOns = [] := List.perm_nil.1 (hw ▸ orderHandOns_perm order _)
      rw [hx, hnil]
      rfl
    · subst ho
      rw [orderHandOns_map hs _ hperm hnd] at hx
      exact ⟨_, hx, surgeEntered_taken g hs⟩

/-! ## An item dealt with -/

/-- R138, R139: the tally with one more item counted. -/
def tallied (t : Tally) (found freed : Bool) : Tally :=
  if found then ⟨t.tag, t.branch, t.found + 1, if freed then t.freed + 1 else t.freed, t.missed⟩
  else ⟨t.tag, t.branch, t.found, t.freed, t.missed + 1⟩

/-- R138, R139: the branch's totals with one more item counted. -/
def branchCounted (br : Branch) (found : Bool) : Branch :=
  if found then { br with relFound := min 4294967295 (br.relFound + 1) }
  else { br with relMissed := min 4294967295 (br.relMissed + 1) }

theorem countItem_of_tally (found freed : Bool) (ht : s.index.tally = some t) :
    s.countItem it found freed = { s with
      index := { s.index with tally := some (tallied t found freed) }
      monitor := (s.setBranch it.branch (branchCounted (s.branch it.branch) found)).monitor } := by
  simp only [State.countItem, State.tallyFor, ht]
  rfl

/-- R138, R140, R73: the state once the item has been counted and its operation has given up the port and its bucket. -/
def itemDone (s : State) (b : Nat) (it : ReleaseItem) (t : Tally) (found freed : Bool) : State :=
  { s with
    index := { s.index with
      other := none, inflight := s.index.inflight.filter (fun x => x != b)
      tally := some (tallied t found freed) }
    monitor := (s.setBranch it.branch (branchCounted (s.branch it.branch) found)).monitor }

/-- R139, R140: the queue goes on behind an item that has been dealt with. -/
theorem finishItem_goesOn (found freed : Bool) (ht : s.index.tally = some t) (hq : s.index.releases = it :: later) :
    State.ReleasesGoOn ((itemDone s b it t found freed).releaseEnded it.last) later
      (s.finishItem b it found freed) := by
  have hlater : s.index.releases.drop 1 = later := by rw [hq, List.drop_one, List.tail_cons]
  have hf : s.finishItem b it found freed =
      ((itemDone s b it t found freed).releaseEnded it.last).advanceReleases later := by
    simp only [State.finishItem, completeRelease_eq, countItem_of_tally found freed ht]
    exact congrArg _ hlater
  rw [hf]
  exact advanceReleases_goesOn _ _

/-! ## The accounting of a removed entry -/

/-- R79: a container with one entry fewer. -/
def oneEntryFewer (v : Container) (len : Nat) : Container :=
  { v with entries := v.entries - 1, live := v.live - len }

/-- R79, R91: the removal of an entry that leaves others, or leaves an OPEN or FULL container without any, only lowers
the two counts. -/
theorem account_lowers (len : Nat)
    (h : 1 < (s.container c).entries ∨ (s.container c).state = .open_ ∨ (s.container c).state = .full) :
    s.account c len = s.setContainer c (oneEntryFewer (s.container c) len) := by
  rcases h with h | h | h
  · exact account_of_more s c len h
  · simp only [State.account, oneEntryFewer, h, ite_self]
  · simp only [State.account, oneEntryFewer, h, ite_self]

/-- R91: the state once the container, one entry fewer, is RECLAIMABLE, with its notice. -/
def reclaimedBy (s : State) (c len : Nat) : State :=
  { s with
    place :=
      { (s.setContainer c { oneEntryFewer (s.container c) len with state := .reclaimable }).place with
        nReclaimable := s.place.nReclaimable + 1 }
    link := s.link.noticed (.containerReclaimable c ((s.container c).group.getD 0) (s.container c).fill) }

/-- R91: so the removal of a DURABLE container's last entry leaves it. -/
theorem account_reclaims (len : Nat) (hs : (s.container c).state = .durable) (h1 : (s.container c).entries = 1) :
    s.account c len = reclaimedBy s c len := by
  have hfree : oneEntryFewer (s.container c) len ≠ Container.free :=
    Container.ne_free (v := oneEntryFewer (s.container c) len) (by simp [oneEntryFewer, hs])
  have ha : s.account c len = (s.setContainer c (oneEntryFewer (s.container c) len)).reclaim c := by
    simp only [State.account, h1, hs, Nat.sub_self, if_true, oneEntryFewer]
  rw [ha, reclaim_eq, State.container_setContainer, if_pos rfl, setContainer_setContainer _ _ _ hfree]
  rfl

/-- R79, R91: such a removal has nothing to tell the host processor. -/
theorem removalNotice_eq_false
    (h : 1 < (s.container c).entries ∨ (s.container c).state = .open_ ∨ (s.container c).state = .full) :
    s.removalNotice c = false := by
  rcases h with h | h | h
  · have hleft : (s.container c).entries - 1 ≠ 0 := by omega
    simp [State.removalNotice, hleft]
  · simp [State.removalNotice, h]
  · simp [State.removalNotice, h]

/-! ## The release operation -/

theorem exec_releaseOpDone (hd : s.ctl.dev = .service) (hp : s.ctl.pinHeld = false)
    (ho : s.index.other = some (.release b)) (hh : s.place.held = none) :
    exec (.releaseOpDone k) s = .next (s.noteCorrected k).releaseOp := by
  simp only [exec, execReleaseOpDone, ho, inService_iff.2 ⟨hd, hp⟩, hh]
  rfl

section operation

variable (ho : s.index.other = some (.release b)) (hq : s.index.releases = it :: later)
include ho hq

/-- R138: no entry. -/
theorem releaseOp_absent (hf : (s.search b it.fp it.length).found = none) :
    s.releaseOp = s.finishItem b it false false := by
  simp only [State.releaseOp, ho, hq, hf]

variable (hf : (s.search b it.fp it.length).found = some (e, i))
include hf

/-- R138: an entry of a LOST container. -/
theorem releaseOp_lost (hl : (s.container e.container).state = .lost) :
    s.releaseOp = s.finishItem b it false false := by
  simp only [State.releaseOp, ho, hq, hf, hl, if_true]

/-- R96: the removal of a DURABLE container's last entry waits for the room that its notice needs. -/
theorem releaseOp_held (h1 : e.refs = 1) (hh : s.place.held = none) (hs : (s.container e.container).state = .durable)
    (he : (s.container e.container).entries = 1) (hn : s.hasRoom = false) : s.releaseOp = s.holdPlace .release := by
  have hnotice : s.removalNotice e.container = true := by simp [State.removalNotice, hs, he]
  simp [State.releaseOp, ho, hq, hf, hs, h1, hh, Config.pinned, hnotice, hn]

variable (hl : (s.container e.container).state ≠ .lost)
include hl

theorem releaseOp_pinned (hr : e.refs = 65535) : s.releaseOp = s.finishItem b it true false := by
  simp only [State.releaseOp, ho, hq, hf, hl, hr, Config.pinned, if_true, if_false]

theorem releaseOp_lowered (h1 : 1 < e.refs) (hr : e.refs ≠ 65535) :
    s.releaseOp = (s.recounted e i b (e.refs - 1)).finishItem b it true false := by
  simp only [State.releaseOp, ho, hq, hf, hl, hr, h1, Config.pinned, if_true, if_false, setRefs_eq]

variable (h1 : e.refs = 1) (hh : s.place.held = none)
include h1 hh

/-- R138, R57: the last reference goes, and the entry with it. -/
theorem releaseOp_removed (hn : s.removalNotice e.container = false ∨ s.hasRoom = true) :
    s.releaseOp = ((s.entryGone e i b).account e.container e.length).finishItem b it true true := by
  have hroom : (s.removalNotice e.container && !s.hasRoom) = false := by
    rcases hn with hn | hn
    · rw [hn, Bool.false_and]
    · rw [hn, Bool.not_true, Bool.and_false]
  simp [State.releaseOp, ho, hq, hf, hl, h1, hh, Config.pinned, hroom, State.removeEntry, dropEntry_eq]

end operation

/-! ## A held RELEASE COMPLETE -/

/-- R140: it enters, its tally is discarded, and the queue goes on. -/
theorem exec_heldReleaseCompleteEntry (hd : s.ctl.dev = .service) (hp : s.ctl.pinHeld = false)
    (hc : s.index.completeHeld = true) (ht : s.index.tally = some t) (hn : s.link.notices.length < 128) :
    exec .heldReleaseCompleteEntry s = .next (State.advanceReleases
      { s with
        index := { s.index with tally := none, completeHeld := false }
        link := s.link.noticed (.releaseComplete t.tag t.branch t.found t.freed t.missed) } s.index.releases) := by
  simp only [exec, execHeldReleaseCompleteEntry, inService_iff.2 ⟨hd, hp⟩, hc, hasRoom_iff.2 hn, Bool.and_self, if_true,
    State.completeRelease, ht]
  rfl

/-! ## The statement -/

/-- The record link when nothing has been told to the host processor. -/
theorem link_untold (l : Link) : { l with notices := l.notices ++ [] } = l := by rw [List.append_nil]

/-- Settles O52, by the case that the entry found, its container and its count pick; in each the item is then dealt
with in the same way. -/
theorem releaseOperationActsOnTheEntry : Obligations.ReleaseOperationActsOnTheEntry := by
  refine ⟨fun k s it later t hd hp ho hq ht hh => ?_, fun s t hd hp hc ht hn =>
    ⟨_, exec_heldReleaseCompleteEntry hd hp hc ht hn, advanceReleases_goesOn _ _⟩⟩
  intro b br hit miss finished
  have runs : ∀ {u : State}, (s.noteCorrected k).releaseOp = u → exec (.releaseOpDone k) s = .next u :=
    fun h => (exec_releaseOpDone hd hp ho hh).trans (congrArg _ h)
  refine ⟨fun hf => ?_, fun e i hf => ?_⟩
  · refine ⟨_, runs (releaseOp_absent ho hq hf), ?_⟩
    rw [link_untold]
    exact finishItem_goesOn (s := s.noteCorrected k) false false ht hq
  · intro c less
    refine ⟨fun hl => ?_, fun hl hr => ?_, fun hl h1 hr => ?_, fun hl h1 hm => ?_, fun hs h1 he hn => ?_,
      fun hs h1 he hn => runs (releaseOp_held ho hq hf h1 hh hs he (hasRoom_eq_false.2 hn))⟩
    · refine ⟨_, runs (releaseOp_lost ho hq hf hl), ?_⟩
      rw [link_untold]
      exact finishItem_goesOn (s := s.noteCorrected k) false false ht hq
    · refine ⟨_, runs (releaseOp_pinned ho hq hf hl hr), ?_⟩
      rw [link_untold]
      exact finishItem_goesOn (s := s.noteCorrected k) true false ht hq
    · refine ⟨_, runs (releaseOp_lowered ho hq hf hl h1 hr), ?_⟩
      rw [link_untold]
      cases i with
      | false => exact finishItem_goesOn (s := (s.noteCorrected k).recounted e false b _) true false ht hq
      | true => exact finishItem_goesOn (s := (s.noteCorrected k).recounted e true b _) true false ht hq
    · refine ⟨_, runs (releaseOp_removed ho hq hf hl h1 hh (.inl (removalNotice_eq_false hm))), ?_⟩
      rw [account_lowers (s := (s.noteCorrected k).entryGone e i b) e.length hm, link_untold]
      exact finishItem_goesOn (s := ((s.noteCorrected k).entryGone e i b).setContainer e.container less) true true
        ht hq
    · have hl : c.state ≠ .lost := by simp [hs]
      refine ⟨_, runs (releaseOp_removed ho hq hf hl h1 hh (.inr (hasRoom_iff.2 hn))), ?_⟩
      rw [account_reclaims (s := (s.noteCorrected k).entryGone e i b) e.length hs he]
      exact finishItem_goesOn (s := reclaimedBy ((s.noteCorrected k).entryGone e i b) e.container e.length) true true
        ht hq

end Sys2Proof.ReleasesAndMonitor

/-! PROOFS. The bytes of records and frames (R150, R164): what a field of a width holds and reads back, a frame's parts,
and the layouts as lists of fields. -/

namespace Sys2Proof.RecordBytes

open Machine

variable {p q : List Byte}

/-! ## Fields -/

theorem beNat_concat (p : List Byte) (b : Byte) : beNat (p ++ [b]) = beNat p * 256 + b.toNat := by simp [beNat]

theorem beNat_lt (p : List Byte) : beNat p < 256 ^ p.length := by
  induction p using List.reverseRecOn with
  | nil => simp [beNat]
  | append_singleton p b ih =>
    have hb := b.isLt
    rw [beNat_concat, List.length_append, List.length_singleton, pow_succ]
    omega

theorem length_beBytes (w n : Nat) : (beBytes w n).length = w := by
  induction w generalizing n with
  | zero => rfl
  | succ w ih => rw [beBytes, List.length_append, ih, List.length_singleton]

/-- 00_scope: a field holds its value's low bytes, most significant first. -/
theorem beNat_beBytes (w n : Nat) : beNat (beBytes w n) = n % 256 ^ w := by
  induction w generalizing n with
  | zero => rw [pow_zero, Nat.mod_one]; rfl
  | succ w ih =>
    have hb : (BitVec.ofNat 8 n).toNat = n % 256 := BitVec.toNat_ofNat n 8
    rw [beBytes, beNat_concat, ih, hb, pow_succ', Nat.mod_mul (x := n)]
    omega

theorem field_lt (p : List Byte) (off w : Nat) : field p off w < 256 ^ w :=
  (beNat_lt _).trans_le (Nat.pow_le_pow_right (by decide) (List.length_take_le _ _))

theorem field_drop (p : List Byte) (k off w : Nat) : field (p.drop k) off w = field p (k + off) w := by
  rw [field, field, List.drop_drop]

/-- A field past the first bytes. -/
theorem field_append {k : Nat} (hp : p.length = k) (off w : Nat) : field (p ++ q) (k + off) w = field q off w := by
  rw [← field_drop, ← hp, List.drop_left]

theorem field_beBytes (w n : Nat) (q : List Byte) : field (beBytes w n ++ q) 0 w = n % 256 ^ w := by
  rw [field, List.drop_zero, List.take_left' (length_beBytes w n), beNat_beBytes]

/-! ## Frames -/

/-- R150: a frame's header and payload, which the check value follows. -/
def frameBody (kind stream tag : Nat) (p : List Byte) : List Byte :=
  beBytes 2 p.length ++ beBytes 1 kind ++ beBytes 1 stream ++ beBytes 2 tag ++ p

theorem frameBytes_eq (kind stream tag : Nat) (p : List Byte) :
    frameBytes kind stream tag p =
      frameBody kind stream tag p ++ beBytes 4 (checkValue (frameBody kind stream tag p)).toNat := rfl

section frame

variable (kind stream tag : Nat) (p : List Byte)

theorem length_frameBody : (frameBody kind stream tag p).length = p.length + 6 := by
  simp only [frameBody, List.length_append, length_beBytes]
  omega

theorem length_frameBytes : (frameBytes kind stream tag p).length = p.length + 10 := by
  rw [frameBytes_eq, List.length_append, length_frameBody, length_beBytes]

/-- R150: the frame as its fields one after another, the payload and the check value behind them. -/
theorem frameBytes_fields : ∃ q, frameBytes kind stream tag p =
    beBytes 2 p.length ++ (beBytes 1 kind ++ (beBytes 1 stream ++ (beBytes 2 tag ++ (p ++ q)))) := by
  simp only [frameBytes_eq, frameBody, List.append_assoc]
  exact ⟨_, rfl⟩

theorem field_frame_length (hp : p.length ≤ 4102) : field (frameBytes kind stream tag p) 0 2 = p.length := by
  obtain ⟨q, hq⟩ := frameBytes_fields kind stream tag p
  rw [hq, field_beBytes, Nat.mod_eq_of_lt (by omega)]

theorem field_frame_kind (hk : kind < 256) : field (frameBytes kind stream tag p) 2 1 = kind := by
  obtain ⟨q, hq⟩ := frameBytes_fields kind stream tag p
  rw [hq, field_append (length_beBytes 2 _) 0, field_beBytes, Nat.mod_eq_of_lt (by omega)]

theorem field_frame_stream (hs : stream < 256) : field (frameBytes kind stream tag p) 3 1 = stream := by
  obtain ⟨q, hq⟩ := frameBytes_fields kind stream tag p
  rw [hq, field_append (length_beBytes 2 _) 1, field_append (length_beBytes 1 _) 0, field_beBytes,
    Nat.mod_eq_of_lt (by omega)]

theorem field_frame_tag (ht : tag < 65536) : field (frameBytes kind stream tag p) 4 2 = tag := by
  obtain ⟨q, hq⟩ := frameBytes_fields kind stream tag p
  rw [hq, field_append (length_beBytes 2 _) 2, field_append (length_beBytes 1 _) 1,
    field_append (length_beBytes 1 _) 0, field_beBytes, Nat.mod_eq_of_lt (by omega)]

theorem framePayload_frameBytes : framePayload (frameBytes kind stream tag p) = p := by
  obtain ⟨q, hq⟩ := frameBytes_fields kind stream tag p
  have hheader : (beBytes 2 p.length ++ (beBytes 1 kind ++ (beBytes 1 stream ++ beBytes 2 tag))).length = 6 := by
    simp only [List.length_append, length_beBytes]
  rw [framePayload, length_frameBytes, Nat.add_sub_cancel, hq]
  simp only [← List.append_assoc] at hheader ⊢
  rw [List.append_assoc _ p q, List.drop_left' hheader, List.take_left]

/-- R151: the three checks, of the length, the check value and the header's length field. -/
theorem frameFault_frameBytes (hp : p.length ≤ 4102) : frameFault (frameBytes kind stream tag p) = none := by
  have hbody := length_frameBody kind stream tag p
  have hcut : p.length + 10 - 4 = (frameBody kind stream tag p).length := by omega
  have hcrc : beNat (beBytes 4 (checkValue (frameBody kind stream tag p)).toNat) =
      (checkValue (frameBody kind stream tag p)).toNat := by
    rw [beNat_beBytes]
    exact Nat.mod_eq_of_lt (BitVec.isLt _)
  have hshort : ¬ p.length + 10 < 10 := by omega
  have hlength : ¬ (4102 < p.length ∨ p.length ≠ p.length + 10 - 10) := by omega
  simp only [frameFault, length_frameBytes, field_frame_length kind stream tag p hp, hcut]
  rw [frameBytes_eq, List.take_left, List.drop_left, hcrc, if_neg hshort, if_neg (not_not_intro rfl), if_neg hlength]

end frame

/-- Settles O13, check by check and field by field. -/
theorem frameRoundTrip : Obligations.FrameRoundTrip := fun kind stream tag p hkind hstream htag hp =>
  ⟨frameFault_frameBytes kind stream tag p hp, field_frame_kind kind stream tag p hkind,
    field_frame_stream kind stream tag p hstream, field_frame_tag kind stream tag p htag,
    framePayload_frameBytes kind stream tag p, length_frameBytes kind stream tag p⟩

/-! ## Layouts -/

/-- R164: the bytes of a layout, field after field. -/
def laid (fs : List (Nat × Nat)) : List Byte := fs.flatMap fun f => beBytes f.1 f.2

theorem laid_nil : laid [] = [] := rfl

theorem laid_cons (w v : Nat) (fs : List (Nat × Nat)) : laid ((w, v) :: fs) = beBytes w v ++ laid fs := rfl

theorem laid_append (fs gs : List (Nat × Nat)) : laid (fs ++ gs) = laid fs ++ laid gs := List.flatMap_append

theorem laidOut_laid (fs : List (Nat × Nat)) : LaidOut (laid fs) fs := by
  induction fs with
  | nil => rfl
  | cons f fs ih =>
    obtain ⟨w, v⟩ := f
    refine ⟨?_, field_beBytes w v _, ?_⟩
    · rw [laid_cons, List.length_append, length_beBytes]
      exact Nat.le_add_right _ _
    · rw [laid_cons, List.drop_left' (length_beBytes w v)]
      exact ih

theorem flagCode_eq (b : Bool) : flagCode b = yesNo b := rfl

theorem presence_eq (a b : Bool) : presence a b = yesNo a + 2 * yesNo b := rfl

/-- The bytes of a record and those of its layout, both as a run of fields. -/
theorem counterBytes_eq (c : Counters) : counterBytes c = laid c.layout := by
  simp only [counterBytes, Counters.layout, laid_cons, laid_nil, List.append_nil, List.append_assoc]

theorem reportBytes_eq (r : Report) : reportBytes r = laid r.layout := by
  unfold reportBytes
  simp only [Report.layout, counterBytes_eq, flagCode_eq, presence_eq, laid_append, laid_cons, laid_nil,
    List.append_nil, List.append_assoc]

theorem flatMap_fields {α : Type} (f : α → List Byte) (g : α → List (Nat × Nat)) (h : ∀ a, f a = laid (g a))
    (as : List α) : as.flatMap f = laid (as.flatMap g) := by
  induction as with
  | nil => rfl
  | cons a as ih => rw [List.flatMap_cons, List.flatMap_cons, laid_append, h, ih]

theorem batchBytes_eq (b : Batch) : batchBytes b = laid b.layout := by
  simp only [batchBytes, Batch.layout, laid_append, laid_cons, laid_nil, presence_eq, List.append_nil,
    List.append_assoc]
  rw [flatMap_fields verdictBytes]
  intro v
  simp only [verdictBytes, laid_cons, laid_nil, List.append_nil, List.append_assoc]
  cases v.cstate <;> rfl

theorem payload_eq (n : Notice) : n.payload = laid n.layout := by
  cases n <;>
    simp only [Notice.payload, Notice.layout, Settings.toList, List.flatMap_cons, List.flatMap_nil, flagCode_eq,
      laid_cons, laid_nil, List.append_nil, List.append_assoc]

theorem statusBytes_eq (f : StatusFigures) : statusBytes f = laid (Fields.status f).layout := by
  unfold statusBytes
  simp only [Fields.layout, flagCode_eq, laid_cons, laid_nil, List.append_nil, List.append_assoc]

theorem snapshotBytes_eq (f : SnapshotFigures) : snapshotBytes f = laid (Fields.snapshot f).layout := by
  unfold snapshotBytes totalsBytes
  simp only [Fields.layout, counterBytes_eq, flagCode_eq, presence_eq, laid_append,
    laid_cons, laid_nil, List.append_nil, List.append_assoc]

theorem containerBytes_eq (f : ContainerFigures) : containerBytes f = laid (Fields.queryContainer f).layout := by
  unfold containerBytes
  simp only [Fields.layout, flagCode_eq, laid_cons, laid_nil, List.append_nil, List.append_assoc]

theorem branchBytes_eq (n : Nat) (b : Branch) : branchBytes n b = laid (Fields.queryBranch n b).layout := by
  unfold branchBytes
  simp only [Fields.layout, flagCode_eq, laid_cons, laid_nil, List.append_nil, List.append_assoc]

theorem fieldsBytes_eq (f : Fields) : fieldsBytes f = laid f.layout := by
  cases f with
  | none => rfl
  | openStream slot clamped =>
    simp only [fieldsBytes, Fields.layout, laid_append, laid_cons, laid_nil, List.append_nil, List.append_assoc]
    rw [laid, List.flatMap_map]
  | status f => exact statusBytes_eq f
  | snapshot f => exact snapshotBytes_eq f
  | queryContainer f => exact containerBytes_eq f
  | queryBranch n b => exact branchBytes_eq n b
  | _ =>
    simp only [fieldsBytes, Fields.layout, reportBytes_eq, flagCode_eq, laid_append, laid_cons, laid_nil,
      List.append_nil, List.append_assoc]

theorem replyBytes_eq (r : Reply) :
    beBytes 1 r.kind ++ beBytes 1 r.status.code ++ beBytes 1 r.status.reasonCode ++ fieldsBytes r.fields =
      laid ([(1, r.kind), (1, r.status.code), (1, r.status.reasonCode)] ++ r.fields.layout) := by
  simp only [fieldsBytes_eq, laid_append, laid_cons, laid_nil, List.append_nil, List.append_assoc]

/-! ## The lists of SEED and RELEASE -/

theorem toNat_fpField (p : List Byte) (off : Nat) : (fpField p off).toNat = field p off 16 := by
  rw [fpField, BitVec.toNat_ofNat, Nat.mod_eq_of_lt]
  exact field_lt p off 16

theorem length_seedEntries (count : Nat) (p : List Byte) : (seedEntries count p).length = count := by
  induction count generalizing p with
  | zero => rfl
  | succ count ih => rw [seedEntries, List.length_cons, ih]

/-- R164: a seed entry every 28 bytes. -/
theorem seedEntries_getElem {count i : Nat} (p : List Byte) (hi : i < count) :
    (seedEntries count p)[i]? = some
      ⟨fpField p (28 * i), field p (28 * i + 16) 4, field p (28 * i + 20) 2, field p (28 * i + 22) 4,
        field p (28 * i + 26) 2⟩ := by
  induction count generalizing p i with
  | zero => omega
  | succ count ih =>
    cases i with
    | zero => rfl
    | succ i =>
      rw [seedEntries, List.getElem?_cons_succ, ih _ (by omega)]
      simp only [fpField, field_drop, Nat.mul_succ, Nat.add_comm 28]

theorem length_releaseItems (branch tag count : Nat) (p : List Byte) :
    (releaseItems branch tag count p).length = count := by
  induction count generalizing p with
  | zero => rfl
  | succ count ih => rw [releaseItems, List.length_cons, ih]

/-- R164, R137: a release item every 20 bytes, the last one marked. -/
theorem releaseItems_getElem {branch tag count i : Nat} (p : List Byte) (hi : i < count) :
    (releaseItems branch tag count p)[i]? = some
      ⟨fpField p (20 * i), field p (20 * i + 16) 4, branch, tag, decide (i + 1 = count)⟩ := by
  induction count generalizing p i with
  | zero => omega
  | succ count ih =>
    cases i with
    | zero => simp [releaseItems, Bool.beq_eq_decide_eq]
    | succ i =>
      rw [releaseItems, List.getElem?_cons_succ, ih _ (by omega)]
      simp only [fpField, field_drop, Nat.mul_succ, Nat.add_comm 20, Nat.add_right_cancel_iff]

/-! ## The statement -/

/-- Settles O14: each record's bytes are those of its layout, and the entries and items stand where they are read. -/
theorem recordsAreLaidOut : Obligations.RecordsAreLaidOut := by
  refine ⟨fun r => ⟨_, rfl, ?_⟩, fun n => ⟨payload_eq n ▸ laidOut_laid _, header_code n, header_cls n, header_stream n⟩,
    fun b => batchBytes_eq b ▸ laidOut_laid _, by decide, fun count p => ⟨length_seedEntries count p, fun i hi => ?_⟩,
    fun branch tag count p => ⟨length_releaseItems branch tag count p, fun i hi => ?_⟩⟩
  · rw [replyBytes_eq]
    cases r.status <;> exact laidOut_laid _
  · exact ⟨_, seedEntries_getElem p hi, toNat_fpField _ _, rfl, rfl, rfl, rfl⟩
  · exact ⟨_, releaseItems_getElem p hi, toNat_fpField _ _, rfl, rfl, rfl, decide_eq_true_iff⟩

end Sys2Proof.RecordBytes

/-! PROOFS. What every command keeps (chapter 95). One relation, `Leads`, says of two states that the queue of waiting
commands is the same and that the second lies within the manual's ranges if the first does. Each operation of the model
is shown once to lead on from wherever it is called (`Leads.enter`, `Leads.checkMark`, …), so that the proof for a
command reads as the command does; `exec_leads` puts the commands together. -/

namespace Sys2Proof.StepBounds

open Machine BranchStreams RecordBytes

/-! ## The ranges, part by part -/

/-- R152, R155 to R160: the record link's part of `State.Bounded`; `held` is the DATA REFUSED that waits (R12). -/
def LinkBounded (k : Link) (held : Option Notice) : Prop :=
  k.credit ≤ 255 ∧ k.outstanding ≤ 16 ∧
    k.requests.length + k.replies.length + (if held = none then 0 else 1) = k.outstanding ∧ k.notices.length ≤ 128 ∧
    (k.checkCount ≤ 4294967295 ∧ k.lengthCount ≤ 4294967295 ∧ k.overrunCount ≤ 4294967295) ∧
    1 ≤ k.lastServed ∧ k.lastServed ≤ 64

/-- R76, R169: the controller's part. -/
def CtlBounded (c : Ctl) : Prop :=
  c.corrected ≤ 4294967295 ∧ c.settings.InRange ∧
    (∀ w, c.storeCopy = some w → w.InRange) ∧ ∀ w, c.programming = some w → w.InRange

/-- R60, R137: the index unit's part. -/
def IndexBounded (x : Index) : Prop := x.lookups.length ≤ 64 ∧ x.releases.length ≤ 256

/-- R13, R19, R46: a slot's part. -/
def SlotBounded (sl : Slot) : Prop :=
  sl.queue.length ≤ 8 ∧ sl.budget ≤ 255 ∧ sl.activeWeight ≤ 255 ∧ ∀ w, sl.pendingWeight = some w → w ≤ 255

/-- R39, R44: the scheduler's part. -/
def SchedBounded (d : Sched) : Prop :=
  (1 ≤ d.startSlot ∧ d.startSlot ≤ 64) ∧ (d.frameLen = 64 ∨ d.frameLen = 128 ∨ d.frameLen = 256) ∧
    d.grantCount ≤ d.frameLen

/-- The parts together: an operation that writes none of them keeps this by definition. -/
def Parts (s : State) : Prop :=
  LinkBounded s.link s.dataHeld ∧ CtlBounded s.ctl ∧ IndexBounded s.index ∧ (∀ n, SlotBounded (s.slot n)) ∧
    SchedBounded s.sched

theorem bounded_iff (s : State) : s.Bounded ↔ Parts s := by
  constructor
  · intro h
    exact ⟨⟨h.credit, h.outstanding, h.answered, h.notices, ⟨h.check, h.length, h.overrun⟩, h.served⟩,
      ⟨h.corrected, h.settings, h.stored⟩, ⟨h.lookups, h.releases⟩, fun n => ⟨h.inputs n, h.shares n⟩,
      ⟨h.start, h.frameLen, h.grants⟩⟩
  · rintro ⟨⟨hcredit, hout, hans, hnotices, ⟨hcheck, hlength, hoverrun⟩, hserved⟩, ⟨hcorrected, hsettings, hstored⟩,
      ⟨hlookups, hreleases⟩, hslots, hstart, hframe, hgrants⟩
    exact
      { credit := hcredit, outstanding := hout, answered := hans, notices := hnotices, check := hcheck,
        length := hlength, overrun := hoverrun, served := hserved, corrected := hcorrected, lookups := hlookups,
        releases := hreleases, inputs := fun n => (hslots n).1, start := hstart, frameLen := hframe,
        grants := hgrants, shares := fun n => (hslots n).2, settings := hsettings, stored := hstored }

/-! ## The relation -/

/-- From `o` the engine has come to `s` within one command: the waiting commands are the same, and the ranges kept. -/
def Leads (o s : State) : Prop := s.pending = o.pending ∧ (Parts o → Parts s)

variable {o s t : State}

theorem Leads.refl (s : State) : Leads s s := ⟨rfl, id⟩

theorem Leads.of (h : Leads o s) (hp : t.pending = s.pending) (hb : Parts s → Parts t) : Leads o t :=
  ⟨hp.trans h.1, fun ho => hb (h.2 ho)⟩

theorem Leads.ite {c : Prop} [Decidable c] {u : State} (ht : c → Leads o t) (hu : ¬ c → Leads o u) :
    Leads o (if c then t else u) := by
  split
  · next hc => exact ht hc
  · next hc => exact hu hc

theorem Leads.foldl {f : State → Nat → State} (hf : ∀ u n, Leads o u → Leads o (f u n)) (ns : List Nat)
    (h : Leads o s) : Leads o (ns.foldl f s) := by
  induction ns generalizing s with
  | nil => exact h
  | cons n ns ih => exact ih (hf s n h)

/-! ### Writes to one part -/

theorem Leads.withLink (h : Leads o s) {k : Link} {held : Option Notice}
    (hk : LinkBounded s.link s.dataHeld → LinkBounded k held) :
    Leads o { s with link := k, dataHeld := held } :=
  h.of rfl fun ⟨hlink, hrest⟩ => ⟨hk hlink, hrest⟩

theorem Leads.withCtl (h : Leads o s) {c : Ctl} (hc : CtlBounded s.ctl → CtlBounded c := by exact id) :
    Leads o { s with ctl := c } :=
  h.of rfl fun ⟨hlink, hctl, hrest⟩ => ⟨hlink, hc hctl, hrest⟩

theorem Leads.withIndex (h : Leads o s) {x : Index}
    (hx : IndexBounded s.index → IndexBounded x := by exact id) : Leads o { s with index := x } :=
  h.of rfl fun ⟨hlink, hctl, hindex, hrest⟩ => ⟨hlink, hctl, hx hindex, hrest⟩

/-- A write to a slot; what is written may rest on any of the parts. -/
theorem Leads.setSlot (h : Leads o s) {n : Nat} {v : Slot} (hv : Parts s → SlotBounded v) :
    Leads o (s.setSlot n v) :=
  h.of rfl fun hs => by
    have hsl := hv hs
    obtain ⟨hlink, hctl, hindex, hslots, hsched⟩ := hs
    refine ⟨hlink, hctl, hindex, fun m => ?_, hsched⟩
    rw [State.slot_setSlot]
    split
    · exact hsl
    · exact hslots m

/-- A slot with some of its fields changed, none of them bounded if nothing is said of the change. -/
theorem Leads.editSlot (h : Leads o s) {n : Nat} {v : Slot}
    (hv : SlotBounded (s.slot n) → SlotBounded v := by exact id) : Leads o (s.setSlot n v) :=
  h.setSlot fun ⟨_, _, _, hslots, _⟩ => hv (hslots n)

theorem Leads.mapSlots (h : Leads o s) {f : Slot → Slot} (h0 : f Slot.free = Slot.free)
    (hf : ∀ v, SlotBounded v → SlotBounded (f v)) : Leads o (s.mapSlots f) :=
  h.of rfl fun ⟨hlink, hctl, hindex, hslots, hsched⟩ =>
    ⟨hlink, hctl, hindex, fun m => by rw [State.slot_mapSlots _ f h0]; exact hf _ (hslots m), hsched⟩

theorem Leads.noteCorrected (h : Leads o s) (k : Nat) : Leads o (s.noteCorrected k) :=
  h.withCtl fun ⟨_, hrest⟩ => ⟨Nat.min_le_left _ _, hrest⟩

/-! ### Notices, requests, replies -/

theorem notices_lt (hr : s.hasRoom = true) : s.link.notices.length < 128 := of_decide_eq_true hr

theorem Leads.enter (h : Leads o s) (n : Notice) (hr : s.hasRoom = true) : Leads o (s.enter n) :=
  h.withLink fun ⟨hcredit, hout, hans, _, hrest⟩ =>
    ⟨hcredit, hout, hans, by simpa using notices_lt hr, hrest⟩

theorem Leads.told (h : Leads o s) (ht : s.Told t) : Leads o t := by
  obtain ⟨m, hs, ns, rfl, hlen⟩ := ht
  exact h.withLink (held := s.dataHeld) fun ⟨hcredit, hout, hans, hnotices, hrest⟩ =>
    ⟨hcredit, hout, hans, by simpa using hlen hnotices, hrest⟩

variable {r : Request} {rest : List Request}

/-- R157: the reply takes the place of its request. -/
theorem Leads.answer (h : Leads o s) (hq : s.link.requests = r :: rest) (x : Status) (y : Fields) :
    Leads o (s.answer r x y) :=
  h.withLink (held := s.dataHeld) fun ⟨hcredit, hout, hans, hrest⟩ => by
    refine ⟨hcredit, hout, ?_, hrest⟩
    simp only [hq, List.length_cons] at hans
    simp only [State.popRequest, hq, List.drop_one, List.tail_cons, List.length_append, List.length_singleton]
    omega

theorem Leads.refuse (h : Leads o s) (hq : s.link.requests = r :: rest) (e : Reason) : Leads o (s.refuse r e) :=
  h.answer hq _ _

theorem Leads.enterReport (h : Leads o s) (n : Nat) (rep : Report) (hr : s.hasRoom = true) :
    Leads o (s.enterReport n rep) := h.editSlot.told (enterReport_told s n rep hr)

theorem Leads.placeReport (h : Leads o s) (n : Nat) (rep : Report) : Leads o (s.placeReport n rep) := by
  obtain ⟨a, b, c, ht⟩ := placeReport_told s n rep
  exact h.editSlot.told ht

/-! ## The placement unit and the mark unit -/

theorem Leads.withPlace (h : Leads o s) (p : Place) : Leads o { s with place := p } := h

theorem Leads.setContainer (h : Leads o s) (c : Nat) (v : Container) : Leads o (s.setContainer c v) := h

theorem Leads.setOpenPlace (h : Leads o s) (g : Nat) (v : Option Nat) : Leads o (s.setOpenPlace g v) := h

theorem Leads.holdPlace (h : Leads o s) (x : PlaceHold) : Leads o (s.holdPlace x) := h

theorem Leads.unholdPlace (h : Leads o s) : Leads o s.unholdPlace := h

theorem Leads.closeToFull (h : Leads o s) (c : Nat) (cause : FullCause) (hr : s.hasRoom = true) :
    Leads o (s.closeToFull c cause) :=
  (((h.setContainer c _).setOpenPlace _ none).withPlace _).enter _ hr

theorem Leads.closeSealed (h : Leads o s) (n : Nat) (cs : List Nat) : Leads o (s.closeSealed n cs) := by
  induction cs generalizing s with
  | nil => exact h
  | cons c cs ih =>
    unfold State.closeSealed
    exact .ite (fun _ => .ite (fun _ => h) fun _ => .ite (fun hr => ih (h.closeToFull c _ hr)) fun _ => h.holdPlace _)
      fun _ => ih h

theorem Leads.completeMark (h : Leads o s) (n : Nat) : Leads o (s.completeMark n) := by
  unfold State.completeMark
  dsimp only
  split
  · exact h.editSlot.placeReport _ _
  · exact h

theorem Leads.checkMark (h : Leads o s) (n : Nat) : Leads o (s.checkMark n) := by
  unfold State.checkMark
  dsimp only
  have hclosed : Leads o (if (s.slot n).sealReady = true then
      s.closeSealed n (match (s.slot n).ended with | some sp => sp.deps | none => []) else s) :=
    .ite (fun _ => h.closeSealed _ _) fun _ => h
  exact .ite (fun _ => hclosed.completeMark n) fun _ => hclosed

theorem Leads.checkMarks (h : Leads o s) (ns : List Nat) : Leads o (s.checkMarks ns) := by
  induction ns generalizing s with
  | nil => exact h
  | cons n ns ih => exact ih (h.checkMark n)

theorem Leads.abandonSeal (h : Leads o s) (n : Nat) : Leads o (s.abandonSeal n) :=
  .ite (fun _ => h.unholdPlace.checkMarks _) fun _ => h

theorem slotBounded_endMark {sl : Slot} (h : SlotBounded sl) : SlotBounded sl.endMark := by
  unfold Slot.endMark
  split <;> exact h

theorem slotBounded_startSpan {sl : Slot} (h : SlotBounded sl) (m : Nat) : SlotBounded (sl.startSpan m) := by
  unfold Slot.startSpan
  split
  · dsimp only
    split <;> exact h
  · exact h

theorem Leads.violate (h : Leads o s) (n : Nat) : Leads o (s.violate n) := by
  unfold State.violate
  dsimp only
  split
  · exact ((h.editSlot slotBounded_endMark).placeReport _ _).abandonSeal n
  · exact h

theorem Leads.discardReports (h : Leads o s) (n : Nat) : Leads o (s.discardReports n) := by
  unfold State.discardReports
  dsimp only
  refine Leads.abandonSeal (Leads.editSlot (s := s.dropHandOns n) h fun hsl => ?_) n
  split
  · exact hsl
  · exact slotBounded_endMark hsl

/-! ## Batches and the end of a stream -/

theorem Leads.makeBatch (h : Leads o s) (n : Nat) : Leads o (s.makeBatch n) :=
  .ite (fun _ => h.editSlot.discardReports n) fun _ => h.editSlot

theorem Leads.callBatch (h : Leads o s) (n : Nat) : Leads o (s.callBatch n) :=
  .ite (fun _ => h) fun _ => .ite (fun _ => h.makeBatch n) fun _ => h.editSlot

/-- R110, R111: the last batch, if it is due. -/
theorem Leads.lastBatch (h : Leads o s) (n : Nat) : Leads o (if s.lastBatchDue n then s.callBatch n else s) :=
  .ite (fun _ => h.callBatch n) fun _ => h

theorem slotBounded_free : SlotBounded Slot.free := ⟨by decide, by decide, by decide, nofun⟩

theorem Leads.freeSlot (h : Leads o s) (n : Nat) : Leads o (s.freeSlot n) := by
  rw [freeSlot_eq_foldl]
  refine Leads.foldl (fun u l hu => ?_) _ ?_
  · unfold laneLetGo
    split
    · exact .ite (fun _ => hu) fun _ => hu
    · exact hu
  · exact Leads.setSlot (s := s.setBranch _ _) h fun _ => slotBounded_free

theorem Leads.tryClose (h : Leads o s) (n : Nat) : Leads o (s.tryClose n) :=
  .ite (fun hc => (h.enter _ (Bool.and_eq_true _ _ ▸ hc).2).freeSlot n) fun _ => h

/-! ## Containers and index entries -/

theorem length_unblockHead (qs : List QLookup) : (unblockHead qs).length = qs.length := by cases qs <;> rfl

theorem Leads.joinFreeList (h : Leads o s) (c : Nat) : Leads o (s.joinFreeList c) :=
  (h.withPlace _).withIndex fun ⟨hlookups, hreleases⟩ => ⟨(length_unblockHead _).trans_le hlookups, hreleases⟩

theorem Leads.restWalker (h : Leads o s) : Leads o s.restWalker := by
  unfold State.restWalker
  split
  · exact h
  · exact .ite (fun _ => h) fun _ => h

theorem Leads.freeContainer (h : Leads o s) (c : Nat) : Leads o (s.freeContainer c) :=
  (h.setContainer c .free).joinFreeList c

theorem Leads.freeLost (h : Leads o s) (c : Nat) (hr : s.hasRoom = true) : Leads o (s.freeLost c) :=
  (((h.freeContainer c).enter _ hr).withPlace _).restWalker

theorem Leads.reclaim (h : Leads o s) (c : Nat) (hr : s.hasRoom = true) : Leads o (s.reclaim c) :=
  ((h.setContainer c _).withPlace _).enter _ hr

/-- R79, R160: the caller holds the removal back where its notice has no room. -/
theorem Leads.account (h : Leads o s) (c len : Nat) (hr : s.removalNotice c = true → s.hasRoom = true) :
    Leads o (s.account c len) := by
  unfold State.account
  dsimp only
  refine .ite (fun he => ?_) fun _ => h
  split
  · next hst => exact (h.setContainer c _).reclaim c (hr (by simp [State.removalNotice, he, hst]))
  · next hst => exact (h.setContainer c _).freeLost c (hr (by simp [State.removalNotice, he, hst]))
  · exact h

theorem Leads.setBucket (h : Leads o s) (b : Nat) (v : Bucket) : Leads o (s.setBucket b v) := h

theorem Leads.setSpill (h : Leads o s) (fp : Fp) (len : Nat) (v : Option SpillEntry) : Leads o (s.setSpill fp len v) :=
  h

theorem Leads.dropEntry (h : Leads o s) (e : IndexEntry) (i : Bool) (b : Nat) : Leads o (s.dropEntry e i b) := by
  cases i
  · exact (h.setBucket b _).withIndex
  · exact ((h.setBucket b _).setSpill _ _ none).withIndex.withIndex

theorem Leads.removeEntry (h : Leads o s) (e : IndexEntry) (i : Bool) (b : Nat)
    (hr : s.removalNotice e.container = true → s.hasRoom = true) : Leads o (s.removeEntry e i b) :=
  (h.dropEntry e i b).account _ _ (by rw [dropEntry_eq]; exact hr)

theorem Leads.setRefs (h : Leads o s) (e : IndexEntry) (i : Bool) (b refs : Nat) : Leads o (s.setRefs e i b refs) := by
  cases i <;> exact h

theorem Leads.insertEntry (h : Leads o s) (e : IndexEntry) (count : Nat) :
    Leads o (s.insertEntry e count) :=
  .ite (fun _ => (h.setBucket _ _).withIndex) fun _ => ((h.setBucket _ _).setSpill _ _ _).withIndex

/-- R96: what the tests of a removal that needs no holding give. -/
theorem room_of_not_held {c : Nat} (h : ¬ (s.removalNotice c && !s.hasRoom) = true)
    (hn : s.removalNotice c = true) : s.hasRoom = true := by simpa [hn] using h

/-! ## The lookup queue -/

theorem length_promote (qs : List QLookup) : (promote qs).length = qs.length := by
  rw [promote_eq, List.length_mapIdx]

theorem Leads.popLookup (h : Leads o s) (q : QLookup) : Leads o (s.popLookup q) :=
  h.withIndex fun ⟨hlookups, hreleases⟩ => by
    refine ⟨?_, hreleases⟩
    rw [length_promote, List.length_drop]
    omega

theorem Leads.afterFill (h : Leads o s) (n : Nat) : Leads o (s.afterFill n) :=
  .ite (fun _ => h.callBatch n) fun _ => h

theorem slotBounded_applied {sl : Slot} (h : SlotBounded sl) (k : Nat) (v : Verdict) (dep : Option Nat) :
    SlotBounded (sl.applied k v dep) := h

theorem Leads.finishApply (h : Leads o s) (q : QLookup) (v : Verdict) (dep : Option Nat) :
    Leads o (s.finishApply q v dep) := by
  unfold State.finishApply
  exact (((h.popLookup q).editSlot fun hsl => slotBounded_applied hsl _ v dep).afterFill _).checkMark _

theorem Leads.applyDup (h : Leads o s) (q : QLookup) (e : IndexEntry) (i : Bool) (st : ContState) :
    Leads o (s.applyDup q e i st) := (h.setRefs e i _ _).finishApply q _ _

theorem Leads.applyNew (h : Leads o s) (q : QLookup) (count c : Nat) : Leads o (s.applyNew q count c) := by
  unfold State.applyNew
  exact ((h.setContainer c _).insertEntry _ count).finishApply q _ _

/-- The head of the lookup queue written anew. -/
theorem Leads.withHead (h : Leads o s) {x : Index} {q : QLookup} (f : QLookup → QLookup)
    (hl : x.lookups = q :: (s.index.lookups.drop 1).map f) (hr : x.releases = s.index.releases) :
    Leads o { s with index := x } :=
  h.withIndex fun ⟨hlookups, hreleases⟩ => by
    refine ⟨?_, hr ▸ hreleases⟩
    rw [hl, List.length_cons, List.length_map, List.length_drop]
    omega

theorem Leads.block (h : Leads o s) (q : QLookup) (g : Nat) : Leads o (s.block q g) := by
  have hb := h.withHead (x := { s.index with
    lookups := { q with state := .blocked, result := none } :: (s.index.lookups.drop 1).map giveUp
    inflight := s.index.inflight.filter (fun b => !(givenUp q (s.index.lookups.drop 1)).contains b)
    starving := some g }) giveUp rfl rfl
  exact .ite (fun _ => .ite (fun hr => hb.enter _ hr) fun _ => hb.holdPlace _) fun _ => hb

theorem Leads.openContainer (h : Leads o s) (g c : Nat) : Leads o (s.openContainer g c) :=
  ((h.setContainer c _).setOpenPlace g _).withPlace _

theorem Leads.openAndPlace (h : Leads o s) (q : QLookup) (count g : Nat) : Leads o (s.openAndPlace q count g) := by
  unfold State.openAndPlace
  split
  · next c _ _ => exact (h.openContainer g c).applyNew q count c
  · exact h.block q g

theorem Leads.placeChunk (h : Leads o s) (q : QLookup) (count : Nat) : Leads o (s.placeChunk q count) := by
  unfold State.placeChunk
  dsimp only
  split
  · exact .ite (fun _ => h.applyNew q count _) fun _ =>
      .ite (fun hr => (h.closeToFull _ _ hr).openAndPlace q count _) fun _ => h.holdPlace _
  · exact h.openAndPlace q count _

theorem Leads.applyMiss (h : Leads o s) (q : QLookup) (count : Nat) : Leads o (s.applyMiss q count) :=
  .ite (fun _ => .ite (fun _ => h) fun _ => h.placeChunk q count) fun _ => h.finishApply q _ _

theorem Leads.setHeadResult (h : Leads o s) (q : QLookup) (r : ReadResult) : Leads o (s.setHeadResult q r) :=
  h.withHead id (by rw [List.map_id]) rfl

theorem Leads.applyLost (h : Leads o s) (q : QLookup) (e : IndexEntry) (i : Bool) (count : Nat) :
    Leads o (s.applyLost q e i count) :=
  .ite (fun _ => h) fun _ => .ite (fun _ => h.holdPlace _) fun hn =>
    ((h.removeEntry e i _ (room_of_not_held hn)).setHeadResult q _).applyMiss _ _

theorem Leads.applyHead (h : Leads o s) : Leads o s.applyHead := by
  unfold State.applyHead
  split
  · next q _ _ =>
    split
    · split
      · next e i _ =>
        split
        · exact h.applyDup q e i _
        · exact h.applyDup q e i _
        · exact h.applyDup q e i _
        · exact h.applyLost q e i _
        · exact h
        · exact h
      · exact h.applyMiss q _
    · exact h
  · exact h

theorem Leads.grantLookup (h : Leads o s) (i : Nat) : Leads o (s.grantLookup i) := by
  unfold State.grantLookup
  split
  · exact h.withIndex fun ⟨hlookups, hreleases⟩ => ⟨List.length_set.trans_le hlookups, hreleases⟩
  · exact h

theorem Leads.completeRead (h : Leads o s) (i : Nat) (q : QLookup) : Leads o (s.completeRead i q) := by
  have hset : ∀ q', (s.index.lookups.set i q').length ≤ s.index.lookups.length := fun _ => List.length_set.le
  exact .ite (fun _ => h.withIndex fun ⟨hlookups, hreleases⟩ => ⟨(hset _).trans hlookups, hreleases⟩)
    fun _ => h.withIndex fun ⟨hlookups, hreleases⟩ => ⟨(hset _).trans hlookups, hreleases⟩

/-! ## Releases and the sweep -/

theorem Leads.completeRelease (h : Leads o s) : Leads o s.completeRelease := by
  unfold State.completeRelease
  split
  · exact .ite (fun hr => Leads.enter (s := { s with index := _ }) h _ hr) fun _ => h
  · exact h

theorem Leads.countItem (h : Leads o s) (it : ReleaseItem) (found freed : Bool) :
    Leads o (s.countItem it found freed) := h

theorem Leads.withReleases (h : Leads o s) {x : Index} (hl : x.lookups = s.index.lookups)
    (hr : Parts o → x.releases.length ≤ 256) : Leads o { s with index := x } :=
  ⟨h.1, fun ho =>
    have ⟨hlink, hctl, ⟨hlookups, _⟩, hrest⟩ := h.2 ho
    ⟨hlink, hctl, ⟨hl ▸ hlookups, hr ho⟩, hrest⟩⟩

theorem Leads.releases_le (h : Leads o s) (ho : Parts o) : s.index.releases.length ≤ 256 :=
  have ⟨_, _, ⟨_, hreleases⟩, _⟩ := h.2 ho
  hreleases

/-- R137: the items that stay are among those given. -/
theorem Leads.advanceReleases (h : Leads o s) {items : List ReleaseItem} (hi : Parts o → items.length ≤ 256) :
    Leads o (s.advanceReleases items) := by
  induction items generalizing s with
  | nil => exact h.withReleases rfl hi
  | cons it items ih =>
    unfold State.advanceReleases
    refine .ite (fun _ => h.withReleases rfl hi) fun _ => .ite (fun _ => h.withReleases rfl hi) fun _ => ?_
    have hcounted := h.countItem it false false
    exact ih (.ite (fun _ => hcounted.completeRelease) fun _ => hcounted) fun ho => Nat.le_of_succ_le (hi ho)

theorem Leads.finishItem (h : Leads o s) (b : Nat) (it : ReleaseItem) (found freed : Bool) :
    Leads o (s.finishItem b it found freed) := by
  have hdone : Leads o (State.leaveFlight
      { s.countItem it found freed with index := { (s.countItem it found freed).index with other := none } } b) := h
  refine Leads.advanceReleases (.ite (fun _ => hdone.completeRelease) fun _ => hdone) fun ho => ?_
  exact (List.length_drop ▸ Nat.sub_le _ _ : _ ≤ _).trans (hdone.releases_le ho)

theorem Leads.releaseOp (h : Leads o s) : Leads o s.releaseOp := by
  unfold State.releaseOp
  split
  · split
    · exact .ite (fun _ => h.finishItem _ _ _ _) fun _ => .ite (fun _ => h.finishItem _ _ _ _) fun _ =>
        .ite (fun _ => (h.setRefs _ _ _ _).finishItem _ _ _ _) fun _ => .ite (fun _ => h) fun _ =>
        .ite (fun _ => h.holdPlace _) fun hn =>
          (h.removeEntry _ _ _ (room_of_not_held hn)).finishItem _ _ _ _
    · exact h.finishItem _ _ _ _
  · exact h

theorem Leads.sweepEntries (h : Leads o s) (b : Nat) (es : List (IndexEntry × Bool)) :
    Leads o (s.sweepEntries b es).1 := by
  induction es generalizing s with
  | nil => exact h
  | cons e es ih =>
    unfold State.sweepEntries
    split
    · split
      · exact h
      · split
        · exact h
        · next hn => exact ih (h.removeEntry _ _ b (room_of_not_held hn))
    · exact ih h

theorem Leads.finishSweep (h : Leads o s) (b : Nat) : Leads o (s.finishSweep b) :=
  Leads.restWalker (s := { State.leaveFlight { s with index := _ } b with walker := _ }) h

theorem Leads.sweepOp (h : Leads o s) : Leads o s.sweepOp := by
  unfold State.sweepOp
  split
  · exact .ite (fun _ => (h.sweepEntries _ _).finishSweep _) fun _ => h.sweepEntries _ _
  · exact h

/-! ## The branch monitor -/

theorem Leads.takeHandOns (h : Leads o s) (hs : List HandOn) : Leads o (s.takeHandOns hs) := by
  induction hs generalizing s with
  | nil => exact h
  | cons x hs ih => exact .ite (fun _ => h) fun _ => ih (h.told (told_monitorTake s x))

/-! ## The lanes -/

theorem Leads.setLane (h : Leads o s) (l : Nat) (v : Lane) : Leads o (s.setLane l v) := h

/-- R60: the caller has tested the room of the lookup queue. -/
theorem Leads.joinLookup (h : Leads o s) (lk : Lookup) (hroom : s.index.lookups.length < 64) :
    Leads o (s.joinLookup lk) :=
  (h.editSlot (n := lk.slot)).withIndex fun ⟨_, hreleases⟩ =>
    ⟨by simpa using hroom, hreleases⟩

theorem lookups_lt (h : ¬ s.lookupsFull = true) : s.index.lookups.length < 64 := by
  simp only [State.lookupsFull, Config.lookupMax, decide_eq_true_eq] at h
  omega

theorem Leads.laneWait (h : Leads o s) (l : Nat) (w : Work) (lk : Lookup) : Leads o (s.laneWait l w lk) := h

theorem Leads.cutData (h : Leads o s) (l : Nat) (w : Work) : Leads o (s.cutData l w) := by
  unfold State.cutData
  split
  · exact .ite (fun _ => h.laneWait _ _ _) fun hn => (h.joinLookup _ (lookups_lt hn)).setLane _ _
  · exact h

theorem Leads.reportMark (h : Leads o s) (l : Nat) (w : Work) (m : Nat) : Leads o (s.reportMark l w m) :=
  Leads.checkMark (Leads.editSlot (s := s.setLane l _) h fun hsl => slotBounded_startSpan hsl m) w.slot

theorem Leads.reportEnd (h : Leads o s) (l : Nat) (w : Work) (m : Nat) : Leads o (s.reportEnd l w m) :=
  Leads.lastBatch (Leads.editSlot (s := s.setLane l _) h) w.slot

theorem Leads.cutMarker (h : Leads o s) (l : Nat) (w : Work) (cut : CutReason) {f : State → State}
    (hf : ∀ u, Leads o u → Leads o (f u)) : Leads o (s.cutMarker l w cut f) :=
  .ite (fun _ => .ite (fun _ => h.laneWait _ _ _) fun hn => hf _ (h.joinLookup _ (lookups_lt hn))) fun _ => hf _ h

theorem Leads.laneResume (h : Leads o s) (l : Nat) (w : Work) (lk : Lookup)
    (hroom : s.index.lookups.length < 64) : Leads o (s.laneResume l w lk) := by
  have hjoined : Leads o { s.joinLookup lk with waitOrder := s.waitOrder.drop 1 } := h.joinLookup lk hroom
  unfold State.laneResume
  dsimp only
  split
  · exact hjoined.setLane _ _
  · exact hjoined.reportMark _ _ _
  · exact hjoined.reportEnd _ _ _

theorem Leads.finishEntry (h : Leads o s) (l n : Nat) (x : Ctx) (len : Nat) : Leads o (s.finishEntry l n x len) :=
  Leads.lastBatch (s := (s.setSlot n _).setLane l .idle)
    ((h.editSlot fun ⟨hqueue, hrest⟩ => ⟨by simp only [Slot.finishEntry, List.length_drop]; omega, hrest⟩).setLane l
      _) n

/-! ## The scheduler -/

theorem slotBounded_frameStart {sl : Slot} (h : SlotBounded sl) : SlotBounded sl.frameStart := by
  unfold Slot.frameStart
  split
  · exact h
  · obtain ⟨hqueue, hbudget, hactive, hpending⟩ := h
    have hw : sl.pendingWeight.getD sl.activeWeight ≤ 255 := by
      cases hp : sl.pendingWeight with
      | none => exact hactive
      | some w => exact hpending w hp
    exact ⟨hqueue, hw, hw, nofun⟩

/-- R39, R169: the frame exponents are 6, 7 and 8. -/
theorem frameLen_of_inRange {w : Settings} (h : w.InRange) :
    2 ^ w.frameExp = 64 ∨ 2 ^ w.frameExp = 128 ∨ 2 ^ w.frameExp = 256 := by
  obtain ⟨h1, h2⟩ := h.frameExp
  obtain h | h | h : w.frameExp = 6 ∨ w.frameExp = 7 ∨ w.frameExp = 8 := by omega
  all_goals simp [h]

theorem Leads.frameStart (h : Leads o s) : Leads o s.frameStart :=
  (h.mapSlots (f := Slot.frameStart) rfl fun _ => slotBounded_frameStart).of rfl
    fun ⟨hlink, ⟨hcorrected, hsettings, hstored⟩, hindex, hslots, ⟨hstart, _⟩⟩ =>
      ⟨hlink, ⟨hcorrected, hsettings, hstored⟩, hindex, hslots,
        by
          simp only [State.mapSlots_sched] at hstart
          simp only [State.frameStart, Config.slotCount]
          split <;> omega,
        frameLen_of_inRange hsettings, Nat.zero_le _⟩

/-- R44: a grant is made only while the frame has grants left. -/
theorem Leads.grantTo (h : Leads o s) (l n : Nat) (hg : Parts o → s.sched.grantCount < s.sched.frameLen) :
    Leads o (s.grantTo l n) := by
  unfold State.grantTo
  dsimp only
  split
  · refine Leads.setLane (s := { s.setSlot n _ with sched := _ }) ?_ l _
    have hset : Leads o (s.setSlot n { s.slot n with budget := (s.slot n).budget - 1 }) :=
      h.editSlot fun ⟨hqueue, hbudget, hrest⟩ => ⟨hqueue, (Nat.sub_le _ _).trans hbudget, hrest⟩
    exact ⟨hset.1, fun ho =>
      have ⟨hlink, hctl, hindex, hslots, ⟨hstart, hframe, _⟩⟩ := hset.2 ho
      ⟨hlink, hctl, hindex, hslots, hstart, hframe, hg ho⟩⟩
  · exact h

theorem grantCount_lt (h : ¬ s.frameEnds = true) : s.sched.grantCount < s.sched.frameLen := by
  simp only [State.frameEnds, Bool.or_eq_true, decide_eq_true_eq, not_or] at h
  omega

/-- R44: after a frame start the frame is whole, and otherwise it has not ended. -/
theorem grantCount_frame (s : State) :
    (if s.frameEnds then s.frameStart else s).sched.grantCount <
      (if s.frameEnds then s.frameStart else s).sched.frameLen := by
  split
  · exact Nat.two_pow_pos _
  · next hn => exact grantCount_lt hn

/-! ## The tick -/

theorem Leads.pacingMatch (h : Leads o s) (n : Nat) : Leads o (s.pacingMatch n) :=
  .ite (fun _ => h.editSlot) fun _ => h.editSlot.callBatch n

theorem Leads.tickAge (h : Leads o s) (n : Nat) : Leads o (s.tickAge n) := by
  unfold State.tickAge
  dsimp only
  split
  · exact h.editSlot
  · exact h

theorem Leads.tickPacing (h : Leads o s) (n : Nat) : Leads o (s.tickPacing n) :=
  .ite (fun _ => h.pacingMatch n) fun _ => .ite (fun _ => h) fun _ => h.editSlot

theorem Leads.tickMark (h : Leads o s) (n : Nat) : Leads o (s.tickMark n) :=
  .ite (fun _ => h.violate n) fun _ => .ite (fun _ => h) fun _ => h.editSlot

theorem Leads.tickSlots (h : Leads o s) (ns : List Nat) : Leads o (s.tickSlots ns) := by
  induction ns generalizing s with
  | nil => exact h
  | cons n ns ih => exact ih (((h.tickAge n).tickPacing n).tickMark n)

/-! ## The record link -/

theorem Leads.setTx (h : Leads o s) : Leads o { s with link := { s.link with tx := none } } := h

theorem linkBounded_raise {k : Link} {held : Option Notice} (h : LinkBounded k held) (cause : LinkCause) :
    LinkBounded (k.raise cause) held := by
  obtain ⟨hcredit, hout, hans, hnotices, ⟨hcheck, hlength, hoverrun⟩, hserved⟩ := h
  have hsat : ∀ n, satAdd Config.counterMax n 1 ≤ 4294967295 := fun n => Nat.min_le_left _ _
  cases cause
  · exact ⟨hcredit, hout, hans, hnotices, ⟨hsat _, hlength, hoverrun⟩, hserved⟩
  · exact ⟨hcredit, hout, hans, hnotices, ⟨hcheck, hsat _, hoverrun⟩, hserved⟩
  · exact ⟨hcredit, hout, hans, hnotices, ⟨hcheck, hlength, hsat _⟩, hserved⟩

theorem Leads.setMark (h : Leads o s) (v : Bool) (cause : LinkCause) :
    Leads o { s with link := s.link.setMark v cause } := by cases cause <;> exact h

theorem Leads.linkFault (h : Leads o s) (cause : LinkCause) : Leads o (s.linkFault cause) := by
  have hraised : Leads o { s with link := s.link.raise cause } :=
    h.withLink fun hlink => linkBounded_raise hlink cause
  exact .ite (fun _ => hraised) fun _ => .ite (fun hr => hraised.enter _ hr) fun _ => hraised.setMark true cause

theorem Leads.takeCredit (h : Leads o s) (count : Nat) : Leads o (s.takeCredit count) :=
  h.withLink (held := s.dataHeld) fun ⟨_, hrest⟩ => ⟨Nat.min_le_left _ _, hrest⟩

/-- R155: the request counts, and it waits or its reply does. -/
theorem Leads.receiveRequest (h : Leads o s) (kind stream tag : Nat) (payload : List Byte)
    (hout : s.link.outstanding < 16) : Leads o (s.receiveRequest kind stream tag payload) := by
  unfold State.receiveRequest
  dsimp only
  have hreply : ∀ reply, Leads o (State.pushReply
      { s with link := { s.link with outstanding := s.link.outstanding + 1 } } reply) := fun reply =>
    h.withLink (held := s.dataHeld) fun ⟨hcredit, _, hans, hrest⟩ =>
      ⟨hcredit, hout, by simp only [List.length_append, List.length_singleton]; omega, hrest⟩
  split
  · exact hreply _
  · exact .ite (fun _ => h.withLink (held := s.dataHeld) fun ⟨hcredit, _, hans, hrest⟩ =>
      ⟨hcredit, hout, by simp only [List.length_append, List.length_singleton]; omega, hrest⟩) fun _ => hreply _

theorem Leads.receiveRecord (h : Leads o s) (kind stream tag : Nat) (payload : List Byte) :
    Leads o (s.receiveRecord kind stream tag payload) :=
  .ite (fun _ => .ite (fun _ => h.takeCredit _) fun _ => h.linkFault _) fun _ =>
    .ite (fun _ => Leads.linkFault (s := { s with link := { s.link with lastKind := kind, lastTag := tag } }) h _)
      fun hout =>
      h.receiveRequest _ _ _ _ (Nat.lt_of_not_le hout)

/-- R159: a stream served in class 6 is one of the 64. -/
theorem served_range {src : TxSource} (hsrc : s.nextRecord = some src)
    (h : 1 ≤ s.link.lastServed ∧ s.link.lastServed ≤ 64) :
    1 ≤ servedAfter s.link.lastServed src ∧ servedAfter s.link.lastServed src ≤ 64 := by
  cases src with
  | reply => exact h
  | notice c => exact h
  | batch n =>
    have hn : s.nextBatch = some n := by
      unfold State.nextRecord at hsrc
      split_ifs at hsrc <;> simp at hsrc
      exact hsrc
    have hmem := List.mem_of_find?_eq_some hn
    simp only [batchOrder, List.mem_append, List.mem_range'_1, Config.slotCount] at hmem
    simp only [servedAfter]
    omega

theorem Leads.beginSending (h : Leads o s) {src : TxSource} (hsrc : s.nextRecord = some src) :
    Leads o (s.beginSending src) :=
  h.of rfl fun ⟨⟨hcredit, hout, hans, hnotices, hcounts, hserved⟩, hrest⟩ =>
    ⟨⟨(Nat.sub_le _ _).trans hcredit, hout, hans, hnotices, hcounts, served_range hsrc hserved⟩, hrest⟩

theorem Leads.batchSent (h : Leads o s) (n : Nat) : Leads o (s.batchSent n) := by
  have hempty : Leads o (s.setSlot n { s.slot n with madeBatch := none }) := h.editSlot
  exact .ite (fun _ => .ite (fun _ => hempty.tryClose n) fun _ =>
    .ite (fun _ => hempty.makeBatch n) fun _ => hempty) fun _ => hempty

theorem factory_inRange : Settings.factory.InRange := by constructor <;> decide

theorem linkBounded_reset : LinkBounded Link.reset none := by unfold LinkBounded Link.reset; decide

/-- R166: every value after a reset lies in its range; the settings are the store's copy or the factory's. -/
theorem parts_afterReset (cause : ResetCause) (pin : Bool) (h : Parts s) : Parts (s.afterReset cause pin) := by
  obtain ⟨-, ⟨-, -, hstored, -⟩, -⟩ := h
  have hcopy : ∀ w, s.storedAtReset = some w → w.InRange := by
    intro w hw
    unfold State.storedAtReset at hw
    split at hw
    · cases hw
    · exact hstored w hw
  have hsettings : (s.storedAtReset.getD .factory).InRange := by
    cases hc : s.storedAtReset with
    | none => exact factory_inRange
    | some w => exact hcopy w hc
  exact ⟨linkBounded_reset, ⟨Nat.zero_le _, hsettings, hcopy, nofun⟩, ⟨Nat.zero_le _, Nat.zero_le _⟩,
    fun _ => slotBounded_free, ⟨Nat.le_refl 1, Nat.le_add_left 1 63⟩, frameLen_of_inRange hsettings, Nat.zero_le _⟩

theorem Leads.resetTo (h : Leads o s) (cause : ResetCause) (pin : Bool) : Leads o (s.resetTo cause pin) :=
  h.of rfl fun hs => by
    rw [resetTo_eq]
    exact parts_afterReset cause pin hs

theorem Leads.finishSending (h : Leads o s) (src : TxSource) : Leads o (s.finishSending src) := by
  unfold State.finishSending
  cases src with
  | reply =>
    dsimp only
    split
    · next r rest hq =>
      refine .ite (fun _ => h.setTx.resetTo _ _) fun _ => h.withLink (held := s.dataHeld) ?_
      rintro ⟨hcredit, hout, hans, hrest⟩
      rw [hq, List.length_cons] at hans
      exact ⟨hcredit, (Nat.sub_le _ _).trans hout, by dsimp only; omega, hrest⟩
    · exact h.setTx
  | notice c =>
    exact h.withLink (held := s.dataHeld) fun ⟨hcredit, hout, hans, hnotices, hrest⟩ =>
      ⟨hcredit, hout, hans, List.length_eraseP_le.trans hnotices, hrest⟩
  | batch n => exact h.setTx.batchSent n

/-! ## The controller -/

theorem Leads.makeReady (h : Leads o s) : Leads o s.makeReady :=
  .ite (fun hr => h.withCtl.enter _ hr) fun _ => h

theorem Leads.makeSaved (h : Leads o s) (w : Settings) : Leads o (s.makeSaved w) :=
  .ite (fun hr => h.withCtl.enter _ hr) fun _ => h

theorem Leads.refuseHeld (h : Leads o s) : Leads o s.refuseHeld := by
  unfold State.refuseHeld
  refine .ite (fun _ => ?_) fun _ => h
  dsimp only
  split
  · next hq => exact Leads.refuse (s := { s with marks := _, ctl := _, place := _ }) h hq _
  · exact h

theorem Leads.enterFault (h : Leads o s) : Leads o s.enterFault :=
  .ite (fun hr => h.refuseHeld.withCtl.enter _ hr) fun _ => h.refuseHeld

theorem Leads.enterFlight (h : Leads o s) (b : Nat) : Leads o (s.enterFlight b) := h

theorem Leads.runSeed (h : Leads o s) (bad : Option Nat) (w : SeedWork) (es : List SeedEntry) :
    Leads o (s.runSeed bad w es) := by
  induction es generalizing bad w with
  | nil =>
    unfold State.runSeed
    dsimp only
    split
    · next hq => exact Leads.answer (s := { s with ctl := _ }) h hq _ _
    · exact h
  | cons e es ih =>
    unfold State.runSeed
    exact .ite (fun _ => h.withCtl.enterFault) fun _ => .ite (fun _ => ih _ _) fun _ =>
      .ite (fun _ => ih _ _) fun _ => h.withCtl.withIndex.enterFlight (bucketOf e.fp)

theorem Leads.takeSeedEntry (h : Leads o s) (e : SeedEntry) (count : Nat) : Leads o (s.takeSeedEntry e count) := by
  unfold State.takeSeedEntry
  exact (h.insertEntry _ count).setContainer _ _

theorem Leads.seedOp (h : Leads o s) (bad : Option Nat) : Leads o (s.seedOp bad) := by
  unfold State.seedOp
  split
  · next b _ _ =>
    split
    · dsimp only
      have hleft : Leads o (State.leaveFlight { s with index := { s.index with other := none } } b) := h
      exact .ite (fun _ => hleft.runSeed _ _ _) fun _ =>
        .ite (fun _ => (hleft.takeSeedEntry _ _).runSeed _ _ _) fun _ => hleft.runSeed _ _ _
    · exact h
  · exact h

theorem Leads.reclaimRun (h : Leads o s) (made : Nat) (cs : List (Nat × Container)) :
    Leads o (s.reclaimRun made cs).1 := by
  induction cs generalizing s made with
  | nil => exact h
  | cons c cs ih =>
    unfold State.reclaimRun
    split
    · split
      · next hr => exact ih (h.reclaim _ hr) _
      · exact h
    · exact ih h _

theorem Leads.enterService (h : Leads o s) (made : Nat) : Leads o (s.enterService made) := by
  unfold State.enterService
  dsimp only
  split
  · next hq => exact Leads.answer (s := { s with place := _, ctl := _ }) h hq _ _
  · exact h

theorem Leads.runBegin (h : Leads o s) (made : Nat) (bad : Option Nat) : Leads o (s.runBegin made bad) := by
  have hrun := h.reclaimRun made (recordsBefore bad s.place.containers)
  unfold State.runBegin
  split
  · next hc => rw [hc] at hrun; exact hrun
  · next hc =>
    rw [hc] at hrun
    exact .ite (fun _ => hrun.withCtl.enterFault) fun _ => hrun.enterService _

/-! ## Requests of the controller -/

theorem Leads.takeReset (h : Leads o s) (hq : s.link.requests = r :: rest) : Leads o (takeReset r s) :=
  .ite (fun _ => h.refuse hq _) fun _ => h.withCtl.answer hq _ _

/-- R169: a setting set within its range leaves every setting in its range. -/
theorem set_inRange {w : Settings} (h : w.InRange) {number lo hi v : Nat} (hn : settingRange number = some (lo, hi))
    (hlo : lo ≤ v) (hhi : v ≤ hi) : (w.set number v).InRange := by
  unfold settingRange at hn
  split at hn <;> cases hn
  · exact { h with lmin := ⟨hlo, hhi⟩ }
  · exact { h with ltgt := ⟨hlo, hhi⟩ }
  · exact { h with lmax := ⟨hlo, hhi⟩ }
  · exact { h with ks := ⟨hlo, hhi⟩ }
  · exact { h with kl := ⟨hlo, hhi⟩ }
  · exact { h with seed := hhi }
  · exact { h with interval := ⟨hlo, hhi⟩ }
  · exact { h with lengthCheck := hhi }
  · exact { h with weight := hhi }
  · exact { h with pacing := ⟨hlo, hhi⟩ }
  · exact { h with threshold := ⟨hlo, hhi⟩ }
  · exact { h with frameExp := ⟨hlo, hhi⟩ }
  · exact { h with capacityMib := ⟨hlo, hhi⟩ }
  · exact { h with margin := hhi }
  · exact { h with minSampleMib := ⟨hlo, hhi⟩ }

theorem settingRange_le {number lo hi : Nat} (hn : settingRange number = some (lo, hi)) : lo ≤ hi := by
  unfold settingRange at hn
  split at hn <;> cases hn <;> decide

theorem Leads.takeSetSetting (h : Leads o s) (hq : s.link.requests = r :: rest) : Leads o (takeSetSetting r s) := by
  unfold Machine.takeSetSetting
  refine .ite (fun _ => h.refuse hq _) fun _ => .ite (fun _ => h.refuse hq _) fun _ => ?_
  split
  · exact h.refuse hq _
  · next lo hi hn =>
    obtain ⟨hlo, hhi⟩ := clampTo_range lo hi (field r.payload 1 4) (settingRange_le hn)
    have hset : Leads o { s with ctl := { s.ctl with
        settings := s.ctl.settings.set (field r.payload 0 1) (clampTo lo hi (field r.payload 1 4)) } } :=
      h.withCtl fun ⟨hcorrected, hsettings, hstored⟩ => ⟨hcorrected, set_inRange hsettings hn hlo hhi, hstored⟩
    exact hset.answer hq _ _

theorem Leads.takeSaveSettings (h : Leads o s) (hq : s.link.requests = r :: rest) :
    Leads o (takeSaveSettings r s) := by
  have hsaving : Leads o { s with ctl := { s.ctl with storeState := .saving, programming := some s.ctl.settings } } :=
    h.withCtl fun ⟨hcorrected, hsettings, hcopy, _⟩ =>
      ⟨hcorrected, hsettings, hcopy, fun _ hw => Option.some.inj hw ▸ hsettings⟩
  exact .ite (fun _ => h.refuse hq _) fun _ => .ite (fun _ => h.refuse hq _) fun _ => hsaving.answer hq _ _

theorem Leads.takeDeclare (h : Leads o s) (hq : s.link.requests = r :: rest) : Leads o (takeDeclare r s) :=
  .ite (fun _ => h.refuse hq _) fun _ => .ite (fun _ => h.refuse hq _) fun _ =>
    .ite (fun _ => h.refuse hq _) fun _ => (h.setContainer _ _).answer hq _ _

theorem Leads.takeSeed (h : Leads o s) (hq : s.link.requests = r :: rest) (bad : Option Nat) :
    Leads o (takeSeed r bad s) :=
  .ite (fun _ => h.refuse hq _) fun _ => .ite (fun _ => h.refuse hq _) fun _ => h.runSeed _ _ _

theorem Leads.takeBeginService (h : Leads o s) (hq : s.link.requests = r :: rest) (bad : Option Nat) :
    Leads o (takeBeginService r bad s) :=
  .ite (fun _ => h.refuse hq _) fun _ => h.runBegin _ _

/-! ## Requests of the stream table -/

theorem le_of_gatherOpen {w : Settings} {blocks : List ParamBlock} {v : OpenValues}
    (hv : gatherOpen w blocks = some v) (hw : w.weight ≤ 255) : v.weight ≤ 255 := by
  rw [gatherOpen_eq, Option.map_eq_some_iff] at hv
  obtain ⟨p, -, rfl⟩ := hv
  dsimp only [openShare]
  split
  · next f _ => exact Nat.le_of_lt_succ (field_lt f 0 1)
  · exact hw

theorem Leads.setBranch (h : Leads o s) (b : Nat) (v : Branch) : Leads o (s.setBranch b v) := h

theorem Leads.openSlot (h : Leads o s) {n branch group : Nat} {v : OpenValues}
    (hv : s.ctl.settings.weight ≤ 255 → v.weight ≤ 255) : Leads o (s.openSlot n branch group v) := by
  unfold State.openSlot
  refine Leads.setBranch (h.setSlot fun hs => ?_) _ _
  obtain ⟨-, ⟨-, hsettings, -⟩, -⟩ := hs
  exact ⟨Nat.zero_le _, hv hsettings.weight, hv hsettings.weight, nofun⟩

theorem Leads.takeOpen (h : Leads o s) (hq : s.link.requests = r :: rest) : Leads o (takeOpen r s) := by
  unfold Machine.takeOpen
  refine .ite (fun _ => h.refuse hq _) fun _ => ?_
  split
  · exact h.refuse hq _
  · refine .ite (fun _ => h.refuse hq _) fun _ => .ite (fun _ => h.refuse hq _) fun _ => ?_
    split
    · exact h.refuse hq _
    · next hv =>
      split
      · exact h.refuse hq _
      · exact (h.openSlot (le_of_gatherOpen hv)).answer hq _ _

/-- R13: an entry joins an input queue that has room. -/
theorem slotBounded_queued {sl v : Slot} {e : Entry} (h : SlotBounded sl) (hroom : sl.queue.length < 8)
    (hqueue : v.queue = sl.queue ++ [e]) (hbudget : v.budget = sl.budget) (hactive : v.activeWeight = sl.activeWeight)
    (hpending : v.pendingWeight = sl.pendingWeight) : SlotBounded v := by
  obtain ⟨-, hrest⟩ := h
  refine ⟨by simpa [hqueue] using hroom, ?_⟩
  rwa [hbudget, hactive, hpending]

theorem queue_lt_of_dataReason (hr : s.dataReason r = none) : (s.slot r.stream).queue.length < 8 := by
  unfold State.dataReason at hr
  split at hr <;> try cases hr
  simp only [Config.inputQueueMax] at hr
  split_ifs at hr
  omega

/-- R155: a record taken or dropped counts no longer. -/
theorem Leads.popOutstanding (h : Leads o s) (hq : s.link.requests = r :: rest) :
    Leads o s.popRequest.lessOutstanding :=
  h.withLink (held := s.dataHeld) fun ⟨hcredit, hout, hans, hrest⟩ => by
    rw [hq, List.length_cons] at hans
    refine ⟨hcredit, (Nat.sub_le _ _).trans hout, ?_, hrest⟩
    simp only [State.popRequest, hq, List.drop_one, List.tail_cons]
    omega

/-- R12, R155: a dropped record counts on while its DATA REFUSED is held. -/
theorem Leads.holdData (h : Leads o s) (hq : s.link.requests = r :: rest) (hheld : s.dataHeld = none) (note : Notice) :
    Leads o { s.popRequest with dataHeld := some note } :=
  h.withLink (held := some note) fun ⟨hcredit, hout, hans, hrest⟩ => by
    rw [hq, hheld, if_pos rfl, List.length_cons] at hans
    refine ⟨hcredit, hout, ?_, hrest⟩
    simp only [State.popRequest, hq, List.drop_one, List.tail_cons, reduceCtorEq, if_false]
    omega

theorem Leads.takeData (h : Leads o s) (hq : s.link.requests = r :: rest) (hheld : s.dataHeld = none) :
    Leads o (takeData r s) := by
  unfold Machine.takeData
  split
  · next hr =>
    have hroom := queue_lt_of_dataReason hr
    refine Leads.popOutstanding (h.editSlot fun hsl => ?_) hq
    exact slotBounded_queued hsl hroom rfl rfl rfl rfl
  · exact .ite (fun hr => (h.popOutstanding hq).enter _ hr) fun _ => h.holdData hq hheld _

theorem Leads.takeSetWeight (h : Leads o s) (hq : s.link.requests = r :: rest) : Leads o (takeSetWeight r s) := by
  unfold Machine.takeSetWeight
  split
  · exact h.refuse hq _
  · refine Leads.answer (h.editSlot fun ⟨hqueue, hbudget, hactive, _⟩ => ⟨hqueue, hbudget, hactive, fun w hw => ?_⟩) hq
      _ _
    exact Option.some.inj hw ▸ Nat.le_of_lt_succ (field_lt _ 0 1)

theorem Leads.takeSetPacing (h : Leads o s) (hq : s.link.requests = r :: rest) : Leads o (takeSetPacing r s) := by
  unfold Machine.takeSetPacing
  split
  · exact h.refuse hq _
  · exact h.editSlot.answer hq _ _

theorem Leads.takeSnapshot (h : Leads o s) (hq : s.link.requests = r :: rest) : Leads o (takeSnapshot r s) := by
  unfold Machine.takeSnapshot
  split
  · exact h.refuse hq _
  · exact h.answer hq _ _

theorem Leads.takeClose (h : Leads o s) (hq : s.link.requests = r :: rest) : Leads o (takeClose r s) := by
  unfold Machine.takeClose
  split
  · exact h.refuse hq _
  · dsimp only
    split
    · exact h.refuse hq _
    · next hr =>
      have hroom : (s.slot r.stream).queue.length < 8 := by
        unfold closeReason at hr
        split_ifs at hr with _ hfull
        exact Nat.lt_of_not_le hfull
      refine Leads.answer (h.editSlot fun hsl => ?_) hq _ _
      exact slotBounded_queued hsl hroom rfl rfl rfl rfl

theorem Leads.abortSlot (h : Leads o s) (n : Nat) : Leads o (s.abortSlot n) :=
  h.editSlot fun ⟨hqueue, hrest⟩ => by
    refine ⟨?_, hrest⟩
    dsimp only [State.keptEntries]
    split
    · exact (List.length_take_le' _ _).trans hqueue
    · exact Nat.zero_le _

theorem Leads.afterAbort (h : Leads o s) (n : Nat) : Leads o (s.afterAbort n) :=
  .ite (fun _ => (h.discardReports n).tryClose n) fun _ => h.lastBatch n

theorem Leads.takeAbort (h : Leads o s) (hq : s.link.requests = r :: rest) : Leads o (takeAbort r s) := by
  unfold Machine.takeAbort
  split
  · exact h.refuse hq _
  · exact ((h.abortSlot _).answer hq _ _).afterAbort _

/-! ## Requests of the mark unit -/

theorem Leads.takeMark (h : Leads o s) (hq : s.link.requests = r :: rest) : Leads o (takeMark r s) := by
  unfold Machine.takeMark
  split
  · exact h.refuse hq _
  · split
    · exact h.refuse hq _
    · next hr =>
      have hroom : (s.slot r.stream).queue.length < 8 := by
        unfold State.markReason at hr
        dsimp only at hr
        split_ifs at hr with _ _ hfull
        exact Nat.lt_of_not_le hfull
      refine Leads.answer (h.editSlot fun hsl => ?_) hq _ _
      exact slotBounded_queued hsl hroom rfl rfl rfl rfl

theorem Leads.takeSeal (h : Leads o s) (hq : s.link.requests = r :: rest) : Leads o (takeSeal r s) := by
  unfold Machine.takeSeal
  split
  · exact h.refuse hq _
  · dsimp only
    split
    · exact h.refuse hq _
    · exact (h.editSlot.answer hq _ _).checkMark _

theorem Leads.takeReadReport (h : Leads o s) (hq : s.link.requests = r :: rest) : Leads o (takeReadReport r s) := by
  unfold Machine.takeReadReport
  split
  · exact h.refuse hq _
  · dsimp only
    split
    · exact h.refuse hq _
    · exact h.answer hq _ _

/-- R130, R160: a waiting report moves in only where its notice has room. -/
theorem Leads.ackReport (h : Leads o s) (hq : s.link.requests = r :: rest) (old : Report)
    (hr : (s.slot r.stream).waiting.isSome = true → s.hasRoom = true) : Leads o (s.ackReport r old) := by
  unfold State.ackReport
  dsimp only
  split
  · next rep hw =>
    have hentered := (h.editSlot (n := r.stream)
      (v := { s.slot r.stream with reportSlot := none, waiting := none })).enterReport r.stream rep
      (hr (by rw [hw]; rfl))
    exact hentered.answer ((aside_enterReport _ _ _).requests.trans hq) _ _
  · exact (h.editSlot.answer hq _ _).tryClose _

theorem Leads.takeAckReport (h : Leads o s) (hq : s.link.requests = r :: rest) : Leads o (takeAckReport r s) := by
  unfold Machine.takeAckReport
  split
  · exact h.refuse hq _
  · split
    · exact h.refuse hq _
    · refine .ite (fun _ => h) fun hn => h.ackReport hq _ fun hw => ?_
      simpa [hw] using hn

theorem Leads.takeRetime (h : Leads o s) (hq : s.link.requests = r :: rest) : Leads o (takeRetime r s) := by
  unfold Machine.takeRetime
  split
  · exact h.refuse hq _
  · exact .ite (fun _ => h.refuse hq _) fun _ => h.editSlot.answer hq _ _

/-! ## Requests of the placement unit and of the branch monitor -/

/-- R96: what the tests of a transition that is not held give. -/
theorem room_of_not_full {p : Prop} (h : ¬ (p ∧ s.hasRoom = false)) (hp : p) : s.hasRoom = true := by simpa [hp] using h

theorem Leads.makeDurable (h : Leads o s) (c : Nat) (hr : (s.container c).entries = 0 → s.hasRoom = true) :
    Leads o (s.makeDurable c) := by
  unfold State.makeDurable
  dsimp only
  exact .ite (fun he => ((h.setContainer c _).withPlace _).reclaim c (hr he)) fun _ =>
    (h.setContainer c _).withPlace _

theorem Leads.makeLost (h : Leads o s) (c : Nat) (hr : (s.container c).entries = 0 → s.hasRoom = true) :
    Leads o (s.makeLost c) := by
  unfold State.makeLost
  dsimp only
  exact .ite (fun he => ((h.setContainer c _).withPlace _).freeLost c (hr he)) fun _ => h

theorem Leads.mapSpans (h : Leads o s) (f : Span → Span) : Leads o (s.mapSlots (fun sl => sl.mapSpans f)) :=
  h.mapSlots rfl fun _ hsl => hsl

theorem requests_makeDurable (c : Nat) : (s.makeDurable c).link.requests = s.link.requests := by
  unfold State.makeDurable
  dsimp only
  split <;> rfl

theorem requests_makeLost (c : Nat) : (s.makeLost c).link.requests = s.link.requests := by
  unfold State.makeLost
  dsimp only
  split
  · exact (aside_freeLost _ c).requests
  · rfl

theorem Leads.takeDurable (h : Leads o s) (hq : s.link.requests = r :: rest) : Leads o (takeDurable r s) := by
  unfold Machine.takeDurable
  refine .ite (fun _ => h.refuse hq _) fun _ => .ite (fun _ => h.refuse hq _) fun _ =>
    .ite (fun _ => h.holdPlace _) fun hn => ?_
  have hmade := (h.makeDurable _ (room_of_not_full hn)).mapSpans (Span.dropDep (field r.payload 0 2))
  exact (hmade.answer ((requests_makeDurable _).trans hq) _ _).checkMarks _

theorem Leads.takeLost (h : Leads o s) (hq : s.link.requests = r :: rest) : Leads o (takeLost r s) := by
  unfold Machine.takeLost
  refine .ite (fun _ => h.refuse hq _) fun _ => .ite (fun _ => h.refuse hq _) fun _ =>
    .ite (fun _ => h.holdPlace _) fun hn => ?_
  have hmade := (h.makeLost _ (room_of_not_full hn)).mapSpans (Span.taintDep (field r.payload 0 2))
  exact (hmade.answer ((requests_makeLost _).trans hq) _ _).checkMarks _

theorem Leads.takeFree (h : Leads o s) (hq : s.link.requests = r :: rest) : Leads o (takeFree r s) := by
  unfold Machine.takeFree
  exact .ite (fun _ => h.refuse hq _) fun _ => .ite (fun _ => h.refuse hq _) fun _ =>
    ((h.withPlace _).freeContainer _).answer hq _ _

theorem Leads.takeFlush (h : Leads o s) (hq : s.link.requests = r :: rest) : Leads o (takeFlush r s) := by
  unfold Machine.takeFlush
  refine .ite (fun _ => h.refuse hq _) fun _ => .ite (fun _ => h.refuse hq _) fun _ => ?_
  split
  · exact h.refuse hq _
  · next c _ => exact .ite (fun hr => (h.closeToFull c .flush hr).answer hq _ _) fun _ => h.holdPlace _

theorem Leads.takeQueryContainer (h : Leads o s) (hq : s.link.requests = r :: rest) :
    Leads o (takeQueryContainer r s) := .ite (fun _ => h.refuse hq _) fun _ => h.answer hq _ _

theorem Leads.takeRelease (h : Leads o s) (hq : s.link.requests = r :: rest) : Leads o (takeRelease r s) := by
  unfold Machine.takeRelease
  refine .ite (fun _ => h.refuse hq _) fun _ => .ite (fun _ => h.refuse hq _) fun _ =>
    .ite (fun _ => h.refuse hq _) fun _ => .ite (fun _ => h.refuse hq _) fun hfits => ?_
  refine (h.answer hq _ _).advanceReleases fun _ => ?_
  rw [List.length_append, length_releaseItems]
  exact Nat.le_of_not_lt hfits

theorem Leads.takeClearHold (h : Leads o s) (hq : s.link.requests = r :: rest) : Leads o (takeClearHold r s) :=
  .ite (fun _ => h.refuse hq _) fun _ => (h.setBranch _ _).answer hq _ _

theorem Leads.takeResetBaseline (h : Leads o s) (hq : s.link.requests = r :: rest) :
    Leads o (takeResetBaseline r s) := by
  unfold Machine.takeResetBaseline
  refine .ite (fun _ => h.refuse hq _) fun _ => .ite (fun _ => h.refuse hq _) fun _ => ?_
  have hreset := Leads.foldl (f := fun u n => u.setBranch n (u.branch n).resetBaseline)
    (fun _ n hu => hu.setBranch n _) (baselineList r.payload) h
  have hrequests := (aside_foldl (f := fun u n => u.setBranch n (u.branch n).resetBaseline) s
    (fun _ _ => ⟨rfl, rfl, rfl, id⟩) (baselineList r.payload)).requests
  exact hreset.answer (hrequests.trans hq) _ _

theorem Leads.takeQueryBranch (h : Leads o s) (hq : s.link.requests = r :: rest) : Leads o (takeQueryBranch r s) :=
  .ite (fun _ => h.refuse hq _) fun _ => h.answer hq _ _

/-! ## The commands -/

/-- The outcome is a next state, to which `s` leads. -/
def Answers (s : State) (x : Host.Outcome State Fault Refusal) : Prop := ∃ t, x = .next t ∧ Leads s t

theorem Leads.answers (h : Leads s t) : Answers s (.next t) := ⟨t, rfl, h⟩

/-- Log entry 10: a command whose conditions do not hold. -/
theorem answers_idle : Answers s (.next s) := (Leads.refl s).answers

theorem Answers.ite {p : Prop} [Decidable p] {x y : Host.Outcome State Fault Refusal} (hx : p → Answers s x)
    (hy : ¬ p → Answers s y) : Answers s (if p then x else y) := by
  split
  · next hp => exact hx hp
  · next hp => exact hy hp

theorem leads_noteCorrected (s : State) (k : Nat) : Leads s (s.noteCorrected k) := (Leads.refl s).noteCorrected k

/-- R156: a request row. -/
theorem leads_row {i : Instr} {kind : ReqKind} {take : Request → State → State}
    (hrow : rowTaking i = some (kind, take)) (h : s.TakesNow kind r rest) : Leads s (take r s) := by
  have hs := Leads.refl s
  have hnoted := leads_noteCorrected s
  have hq : s.link.requests = r :: rest := h.1
  cases i <;> cases hrow
  case status => exact hs.answer hq _ _
  case reset => exact hs.takeReset hq
  case setSetting => exact hs.takeSetSetting hq
  case saveSettings => exact hs.takeSaveSettings hq
  case declare k => exact (hnoted k).takeDeclare hq
  case seed k bad => exact (hnoted k).takeSeed hq bad
  case beginService k bad => exact (hnoted k).takeBeginService hq bad
  case openStream => exact hs.takeOpen hq
  case data => exact hs.takeData hq (HeldEvents.dataHeld_of_takesNow h)
  case mark => exact hs.takeMark hq
  case readReport => exact hs.takeReadReport hq
  case ackReport => exact hs.takeAckReport hq
  case retime => exact hs.takeRetime hq
  case setWeight => exact hs.takeSetWeight hq
  case setPacing => exact hs.takeSetPacing hq
  case snapshot => exact hs.takeSnapshot hq
  case close => exact hs.takeClose hq
  case abort k => exact (hnoted k).takeAbort hq
  case durable k => exact (hnoted k).takeDurable hq
  case lost k => exact (hnoted k).takeLost hq
  case free k => exact (hnoted k).takeFree hq
  case flush k => exact (hnoted k).takeFlush hq
  case queryContainer k => exact (hnoted k).takeQueryContainer hq
  case release => exact hs.takeRelease hq
  case clearHold => exact hs.takeClearHold hq
  case resetBaseline => exact hs.takeResetBaseline hq
  case queryBranch => exact hs.takeQueryBranch hq
  -- SEAL is left: its name is a keyword, which a case cannot give.
  exact (hnoted _).takeSeal hq

theorem answers_row {i : Instr} {kind : ReqKind} {take : Request → State → State}
    (hrow : rowTaking i = some (kind, take)) (s : State) : Answers s (exec i s) := by
  cases hr : s.headRequest kind with
  | none =>
    rw [exec_requestRow hrow, hr]
    exact answers_idle
  | some r =>
    obtain ⟨rest, h⟩ := headRequest_eq_some.1 hr
    rw [exec_of_takesNow hrow h]
    exact (leads_row hrow h).answers

/-! ### Resets, start-up and the settings store -/

theorem answers_resetPinRelease : Answers s (execResetPinRelease s) :=
  .ite (fun _ => ((Leads.refl s).resetTo _ _).answers) fun _ => answers_idle

theorem answers_indexMemoryClearDone : Answers s (execIndexMemoryClearDone s) := by
  have hcleared : Leads s { s with
      ctl := { s.ctl with clearing := false }
      index := { s.index with buckets := [], spill := [], entryCount := 0, spillCount := 0 }
      place := { s.place with containers := [] } } := .refl s
  exact .ite (fun _ => hcleared.makeReady.answers) fun _ => answers_idle

theorem answers_heldReadyEntry : Answers s (execHeldReadyEntry s) :=
  .ite (fun _ => (Leads.refl s).makeReady.answers) fun _ => answers_idle

/-- R171: the store takes the copy that was being programmed. -/
theorem answers_settingsProgramDone : Answers s (execSettingsProgramDone s) := by
  unfold execSettingsProgramDone
  split
  · next w hw =>
    have hstored : Leads s { s with ctl := { s.ctl with programming := none, storeCopy := some w } } :=
      (Leads.refl s).withCtl fun ⟨hcorrected, hsettings, _, hprogramming⟩ =>
        ⟨hcorrected, hsettings, fun _ he => Option.some.inj he ▸ hprogramming w hw, nofun⟩
    exact .ite (fun _ => answers_idle) fun _ => (hstored.makeSaved w).answers
  · exact answers_idle

theorem answers_heldSettingsSavedEntry : Answers s (execHeldSettingsSavedEntry s) := by
  unfold execHeldSettingsSavedEntry
  split
  · exact .ite (fun _ => ((Leads.refl s).makeSaved _).answers) fun _ => answers_idle
  · exact answers_idle

theorem answers_seedOpDone (k : Nat) (bad : Option Nat) : Answers s (execSeedOpDone k s bad) := by
  have hnoted := leads_noteCorrected s k
  unfold execSeedOpDone
  split
  · exact .ite (fun _ => (hnoted.seedOp bad).answers) fun _ => .ite (fun _ => hnoted.answers) fun _ => answers_idle
  · exact answers_idle

theorem answers_indexMemoryError : Answers s (execIndexMemoryError s) := by
  unfold execIndexMemoryError
  refine .ite (fun _ => answers_idle) fun _ => ?_
  split
  · exact (Leads.refl s).enterFault.answers
  · exact (Leads.refl s).enterFault.answers
  · exact (leads_noteCorrected s 1).answers
  · exact answers_idle

theorem answers_pendingFaultEntry : Answers s (execPendingFaultEntry s) := by
  unfold execPendingFaultEntry
  have hfreed : Leads s { s with ctl := { s.ctl with faultPending := none } } := .refl s
  split
  · exact .ite (fun ⟨_, hr⟩ => (hfreed.enter _ hr).answers) fun _ => answers_idle
  · exact answers_idle

/-! ### The record link -/

theorem answers_frameReceived (bytes : List Byte) : Answers s (execFrameReceived bytes s) := by
  unfold execFrameReceived
  refine .ite (fun _ => answers_idle) fun _ => ?_
  split
  · exact ((Leads.refl s).linkFault _).answers
  · exact ((Leads.refl s).receiveRecord _ _ _ _).answers

theorem answers_credit (count : Nat) : Answers s (execCredit count s) :=
  .ite (fun _ => answers_idle) fun _ => ((Leads.refl s).takeCredit count).answers

theorem answers_transmitStart : Answers s (execTransmitStart s) := by
  unfold execTransmitStart
  split
  · next hsrc => exact .ite (fun _ => ((Leads.refl s).beginSending hsrc).answers) fun _ => answers_idle
  · exact answers_idle

theorem answers_frameTransmitted (k : Nat) : Answers s (execFrameTransmitted s k) := by
  unfold execFrameTransmitted
  split
  · exact .ite (fun _ => answers_idle) fun _ => ((leads_noteCorrected s k).finishSending _).answers
  · exact answers_idle

theorem answers_pendingLinkFaultEntry : Answers s (execPendingLinkFaultEntry s) := by
  unfold execPendingLinkFaultEntry
  split
  · next cause _ =>
    refine .ite (fun hc => ?_) fun _ => answers_idle
    have hr : s.hasRoom = true := (Bool.and_eq_true _ _ ▸ hc).2
    exact (((Leads.refl s).setMark false cause).enter _ (by cases cause <;> exact hr)).answers
  · exact answers_idle

/-- R12, R155: a DATA REFUSED that enters lets its record count no longer. -/
theorem answers_heldDataRefusedEntry : Answers s (execHeldDataRefusedEntry s) := by
  unfold execHeldDataRefusedEntry
  split
  · next note hheld =>
    have hfreed : Leads s { s with dataHeld := none }.lessOutstanding :=
      (Leads.refl s).withLink (held := none) fun ⟨hcredit, hout, hans, hrest⟩ => by
        rw [hheld, if_neg nofun] at hans
        refine ⟨hcredit, (Nat.sub_le _ _).trans hout, ?_, hrest⟩
        dsimp only
        rw [if_pos rfl]
        omega
    exact .ite (fun hc => (hfreed.enter note (Bool.and_eq_true _ _ ▸ hc).2).answers) fun _ => answers_idle
  · exact answers_idle

/-! ### The lanes, their scheduler, and the tick -/

theorem answers_grant : Answers s (execGrant s) := by
  have hframe : Leads s (if s.frameEnds then s.frameStart else s) :=
    .ite (fun _ => (Leads.refl s).frameStart) fun _ => .refl s
  unfold execGrant
  split
  · refine .ite (fun _ => ?_) fun _ => answers_idle
    dsimp only
    split
    · exact (hframe.grantTo _ _ fun _ => grantCount_frame s).answers
    · exact hframe.answers
  · exact answers_idle

theorem answers_laneCut (l : Nat) : Answers s (execLaneCut l s) := by
  unfold execLaneCut
  split
  · split
    · exact .ite (fun _ => ((Leads.refl s).cutData l _).answers) fun _ => answers_idle
    · exact answers_idle
    · exact answers_idle
  · exact answers_idle

theorem answers_laneMarkMarker (l k : Nat) : Answers s (execLaneMarkMarker l k s) := by
  unfold execLaneMarkMarker
  split
  · split
    · exact .ite (fun _ => ((leads_noteCorrected s k).cutMarker l _ _ fun _ hu => hu.reportMark l _ _).answers)
        fun _ => answers_idle
    · exact answers_idle
    · exact answers_idle
  · exact answers_idle

theorem answers_laneEndMarker (l : Nat) : Answers s (execLaneEndMarker l s) := by
  unfold execLaneEndMarker
  split
  · split
    · exact .ite (fun _ => ((Leads.refl s).cutMarker l _ _ fun _ hu => hu.reportEnd l _ _).answers)
        fun _ => answers_idle
    · exact answers_idle
    · exact answers_idle
  · exact answers_idle

theorem answers_laneLookupJoin (k : Nat) : Answers s (execLaneLookupJoin k s) := by
  unfold execLaneLookupJoin
  split
  · split
    · split
      · refine .ite (fun hc => ?_) fun _ => answers_idle
        have hroom : s.index.lookups.length < 64 := of_decide_eq_true (Bool.and_eq_true _ _ ▸ hc).2
        exact ((leads_noteCorrected s k).laneResume _ _ _ hroom).answers
      · exact answers_idle
    · exact answers_idle
  · exact answers_idle

theorem answers_laneEntryFinish (l k : Nat) : Answers s (execLaneEntryFinish l s k) := by
  have hdone := fun n x len => ((leads_noteCorrected s k).finishEntry l n x len).answers
  unfold execLaneEntryFinish
  split
  · refine .ite (fun _ => ?_) fun _ => answers_idle
    split
    · split
      · exact hdone _ _ _
      · exact answers_idle
    · exact .ite (fun _ => hdone _ _ _) fun _ => answers_idle
    · exact .ite (fun _ => hdone _ _ _) fun _ => answers_idle
  · exact answers_idle

theorem answers_tick (k : Nat) : Answers s (execTick s k) :=
  .ite (fun _ => ((leads_noteCorrected s k).tickSlots _).answers) fun _ => answers_idle

theorem answers_pacingMatch (n k : Nat) : Answers s (execPacingMatch n s k) :=
  .ite (fun _ => ((leads_noteCorrected s k).pacingMatch n).answers) fun _ => answers_idle

theorem answers_markTimerLimit (n k : Nat) : Answers s (execMarkTimerLimit n s k) :=
  .ite (fun _ => ((leads_noteCorrected s k).violate n).answers) fun _ => answers_idle

/-! ### The index unit -/

theorem answers_lookupPortGrant : Answers s (execLookupPortGrant s) := by
  unfold execLookupPortGrant
  split
  · exact .ite (fun _ => ((Leads.refl s).grantLookup _).answers) fun _ => answers_idle
  · exact answers_idle

theorem answers_lookupReadDone (i k : Nat) : Answers s (execLookupReadDone i k s) := by
  have hnoted := leads_noteCorrected s k
  unfold execLookupReadDone
  split
  · exact .ite (fun _ => .ite (fun _ => (hnoted.completeRead i _).answers) fun _ =>
      .ite (fun _ => hnoted.answers) fun _ => answers_idle) fun _ => answers_idle
  · exact answers_idle

theorem answers_lookupApply (k : Nat) : Answers s (execLookupApply k s) :=
  .ite (fun _ => (leads_noteCorrected s k).applyHead.answers) fun _ => answers_idle

theorem answers_releasePortGrant : Answers s (execReleasePortGrant s) := by
  unfold execReleasePortGrant
  split
  · exact .ite (fun _ => ((Leads.refl s).withIndex.enterFlight _).answers) fun _ => answers_idle
  · exact answers_idle

theorem answers_releaseOpDone (k : Nat) : Answers s (execReleaseOpDone k s) := by
  have hnoted := leads_noteCorrected s k
  unfold execReleaseOpDone
  split
  · exact .ite (fun _ => hnoted.releaseOp.answers) fun _ => .ite (fun _ => hnoted.answers) fun _ => answers_idle
  · exact answers_idle

theorem answers_heldReleaseCompleteEntry : Answers s (execHeldReleaseCompleteEntry s) :=
  .ite (fun _ => ((Leads.refl s).completeRelease.advanceReleases (Leads.refl s).releases_le).answers)
    fun _ => answers_idle

theorem answers_sweepPortGrant : Answers s (execSweepPortGrant s) :=
  .ite (fun _ => ((Leads.refl s).withIndex.enterFlight _).answers) fun _ => answers_idle

theorem answers_sweepOpDone (k : Nat) : Answers s (execSweepOpDone k s) := by
  have hnoted := leads_noteCorrected s k
  unfold execSweepOpDone
  split
  · exact .ite (fun _ => hnoted.sweepOp.answers) fun _ => .ite (fun _ => hnoted.answers) fun _ => answers_idle
  · exact answers_idle

/-! ### Held events -/

theorem answers_heldReportEntry (n : Nat) : Answers s (execHeldReportEntry n s) := by
  unfold execHeldReportEntry
  split
  · refine .ite (fun hc => ?_) fun _ => answers_idle
    exact ((Leads.refl s).editSlot.enterReport n _ (Bool.and_eq_true _ _ ▸ hc).2).answers
  · exact answers_idle

theorem answers_heldAckReport : Answers s (execHeldAckReport s) := by
  unfold execHeldAckReport
  split
  · next hq =>
    have hfreed : Leads s { s with marks := { s.marks with ackHeld := false } } := .refl s
    exact .ite (fun _ => (hfreed.takeAckReport hq).answers) fun _ => answers_idle
  · exact answers_idle

theorem Leads.enterSurge (h : Leads o s) (g : Surge) (hr : s.hasRoom = true) : Leads o (s.enterSurge g) :=
  (h.setBranch _ _).enter _ hr

theorem Leads.withMarks (h : Leads o s) (m : MarkUnit) : Leads o { s with marks := m } := h

theorem answers_heldSurgeEntry (order : List Nat) : Answers s (execHeldSurgeEntry order s) := by
  unfold execHeldSurgeEntry
  split
  · next g _ =>
    refine .ite (fun hc => ?_) fun _ => answers_idle
    have hfreed : Leads s { s with monitor := { s.monitor with surgeHeld := none } } := .refl s
    have hentered := hfreed.enterSurge g (Bool.and_eq_true _ _ ▸ hc).2
    exact (hentered.withMarks { s.marks with handOns := [] }).takeHandOns _ |>.answers
  · exact answers_idle

theorem Leads.resumeRequest (h : Leads o s) : Leads o s.resumeRequest := by
  unfold State.resumeRequest
  split
  · next hq =>
    split
    · exact h.takeDurable hq
    · exact h.takeLost hq
    · exact h.takeFlush hq
    · exact h
  · exact h

theorem Leads.resumeStarved (h : Leads o s) (hr : s.hasRoom = true) : Leads o s.resumeStarved := by
  unfold State.resumeStarved
  split
  · exact h.enter _ hr
  · exact h

theorem Leads.resumePlace (h : Leads o s) (x : PlaceHold) (hr : s.hasRoom = true) : Leads o (s.resumePlace x) := by
  have hfreed := h.unholdPlace
  unfold State.resumePlace
  match x with
  | .apply => exact hfreed.applyHead
  | .release => exact hfreed.releaseOp
  | .sweep => exact hfreed.sweepOp
  | .request => exact hfreed.resumeRequest
  | .seal n => exact hfreed.checkMark n
  | .starved => exact hfreed.resumeStarved hr

theorem answers_heldContainerNoticeEntry (k : Nat) (bad : Option Nat) :
    Answers s (execHeldContainerNoticeEntry k bad s) := by
  have hnoted := leads_noteCorrected s k
  unfold execHeldContainerNoticeEntry
  refine .ite (fun _ => answers_idle) fun hc => ?_
  have hr : s.hasRoom = true := by simpa using fun hn => hc (.inr hn)
  split
  · exact (hnoted.runBegin _ bad).answers
  · exact ((hnoted.resumePlace _ hr).checkMarks _).answers
  · exact answers_idle

/-! ### Every command -/

theorem exec_answers (i : Instr) (s : State) : Answers s (exec i s) := by
  cases hrow : rowTaking i with
  | some row => exact answers_row hrow s
  | none =>
    cases i <;> simp only [rowTaking, reduceCtorEq] at hrow
    case powerOnReset => exact ((Leads.refl s).resetTo _ _).answers
    case resetPinAssert => exact ((Leads.refl s).resetTo _ _).answers
    case resetPinRelease => exact answers_resetPinRelease
    case indexMemoryClearDone => exact answers_indexMemoryClearDone
    case frameReceived bytes => exact answers_frameReceived bytes
    case credit count => exact answers_credit count
    case settingsProgramDone => exact answers_settingsProgramDone
    case seedOpDone k bad => exact answers_seedOpDone k bad
    case transmitStart => exact answers_transmitStart
    case frameTransmitted k => exact answers_frameTransmitted k
    case tick k => exact answers_tick k
    case pacingMatch n k => exact answers_pacingMatch n k
    case markTimerLimit n k => exact answers_markTimerLimit n k
    case grant => exact answers_grant
    case laneCut l => exact answers_laneCut l
    case laneLookupJoin k => exact answers_laneLookupJoin k
    case laneMarkMarker l k => exact answers_laneMarkMarker l k
    case laneEndMarker l => exact answers_laneEndMarker l
    case laneEntryFinish l k => exact answers_laneEntryFinish l k
    case lookupPortGrant => exact answers_lookupPortGrant
    case lookupReadDone i k => exact answers_lookupReadDone i k
    case indexMemoryError => exact answers_indexMemoryError
    case lookupApply k => exact answers_lookupApply k
    case releasePortGrant => exact answers_releasePortGrant
    case releaseOpDone k => exact answers_releaseOpDone k
    case sweepPortGrant => exact answers_sweepPortGrant
    case sweepOpDone k => exact answers_sweepOpDone k
    case heldReadyEntry => exact answers_heldReadyEntry
    case heldDataRefusedEntry => exact answers_heldDataRefusedEntry
    case heldStreamClosedEntry n => exact ((Leads.refl s).tryClose n).answers
    case heldContainerNoticeEntry k bad => exact answers_heldContainerNoticeEntry k bad
    case heldReportEntry n => exact answers_heldReportEntry n
    case heldAckReport => exact answers_heldAckReport
    case heldSurgeEntry order => exact answers_heldSurgeEntry order
    case heldReleaseCompleteEntry => exact answers_heldReleaseCompleteEntry
    case heldSettingsSavedEntry => exact answers_heldSettingsSavedEntry
    case pendingFaultEntry => exact answers_pendingFaultEntry
    case pendingLinkFaultEntry => exact answers_pendingLinkFaultEntry

/-! ## The statements -/

/-- Settles O2: what every command leads to has the same commands waiting. -/
theorem everyCommandAnswersNext : Obligations.EveryCommandAnswersNext := fun c s =>
  have ⟨t, ht, hpending, _⟩ := exec_answers c s
  ⟨t, ht, hpending⟩

/-- Settles O4: the command at the front leads to a state within the ranges; on an empty queue nothing changes. -/
theorem queuesStayBounded : Obligations.QueuesStayBounded := by
  intro s t hs hstep
  unfold step at hstep
  split at hstep
  · next c rest _ =>
    obtain ⟨u, hu, -, hranges⟩ := exec_answers c (s.withPending rest)
    obtain rfl : u = t := Host.Outcome.next.inj (hu.symm.trans hstep)
    exact (bounded_iff u).2 (hranges ((bounded_iff s).1 hs))
  · exact Host.Outcome.next.inj hstep ▸ hs

/-! ### The state right after reset -/

/-- R166: a power-on reset leaves the record link, the settings and the queues within their ranges. -/
theorem bounded_reset : State.reset.Bounded :=
  (bounded_iff _).2 ⟨linkBounded_reset, ⟨Nat.zero_le _, factory_inRange, nofun, nofun⟩,
    ⟨Nat.zero_le _, Nat.zero_le _⟩, fun _ => slotBounded_free, ⟨Nat.le_refl 1, Nat.le_add_left 1 63⟩,
    .inr (.inl rfl), Nat.zero_le _⟩

theorem portInOrder_reset : State.reset.PortInOrder where
  exact := .nil
  once := List.nodup_nil
  most := Nat.zero_le _
  window := nofun
  starting _ := ⟨rfl, rfl⟩
  restore := nofun
  service := nofun
  alone h := absurd rfl h

/-- R161: every slot is FREE, every lane IDLE, and no lookup waits. -/
theorem placesInOrder_reset : State.reset.PlacesInOrder where
  verdicts _ := Nat.zero_le _
  deps := nofun
  endedDeps := nofun
  reserved _ := rfl
  outstanding _ _ h := h.elim nofun nofun
  spans := nofun
  numbers _ h := absurd rfl h
  free _ _ := rfl
  markers _ := ⟨Nat.zero_le _, fun h => absurd rfl h⟩
  ends _ pre _ _ h := by cases pre <;> cases h
  data := nofun
  payloads := nofun
  profiles := nofun
  settings := ⟨factory_inRange, nofun, nofun⟩
  listed := rfl
  lanes := nofun
  single _ := Nat.zero_le _
  quiet _ h := h.elim nofun nofun
  last := nofun

/-- Settles O7, invariant by invariant. -/
theorem resetMeetsTheInvariants : Obligations.ResetMeetsTheInvariants :=
  ⟨canonical_reset, bounded_reset, portInOrder_reset, placesInOrder_reset⟩

end Sys2Proof.StepBounds

namespace Sys2Proof.RecordLink

open Machine BranchStreams

variable {s : State} {bytes : List Byte} {cause : LinkCause}

/-! ## Link faults -/

/-- R152: a link fault raises its counter, and is told at once, by the pending mark, or not again. -/
theorem linkFault_eq (s : State) (cause : LinkCause) :
    s.linkFault cause = { s with
      link :=
        if s.link.isMarked cause = true then s.link.raise cause
        else if s.link.notices.length < 128 then (s.link.raise cause).noticed ((s.link.raise cause).faultNotice cause)
        else (s.link.raise cause).setMark true cause } := by
  have hmark : (s.link.raise cause).isMarked cause = s.link.isMarked cause := by cases cause <;> rfl
  have hnotices : (s.link.raise cause).notices = s.link.notices := by cases cause <;> rfl
  simp only [State.linkFault, hmark, hasRoom_eq, hnotices, decide_eq_true_iff]
  split
  · rfl
  · split <;> rfl

theorem frameFault_of_short (h : bytes.length < 10) : frameFault bytes = some .length := if_pos h

theorem frameFault_of_check (h : 10 ≤ bytes.length)
    (hc : (checkValue (bytes.take (bytes.length - 4))).toNat ≠ beNat (bytes.drop (bytes.length - 4))) :
    frameFault bytes = some .check :=
  (if_neg (Nat.not_lt.2 h)).trans (if_pos hc)

theorem frameFault_of_length (h : 10 ≤ bytes.length)
    (hc : (checkValue (bytes.take (bytes.length - 4))).toNat = beNat (bytes.drop (bytes.length - 4)))
    (hl : 4102 < field bytes 0 2 ∨ field bytes 0 2 + 10 ≠ bytes.length) : frameFault bytes = some .length :=
  (if_neg (Nat.not_lt.2 h)).trans ((if_neg (not_not.2 hc)).trans (if_pos (hl.imp_right fun hn => by omega)))

/-- R151: a frame that fails a check is discarded, and counted under the cause. -/
theorem exec_frameReceived_bad (hp : s.ctl.pinHeld = false) (hf : frameFault bytes = some cause) :
    exec (.frameReceived bytes) s = .next (s.linkFault cause) := by
  simp only [exec, execFrameReceived, hp, hf, Bool.false_eq_true, if_false]

/-- R152: the LINK FAULT of the first pending mark enters as a place frees, and the mark is cleared. -/
theorem exec_pendingLinkFaultEntry (hp : s.ctl.pinHeld = false) (hr : s.link.notices.length < 128)
    (hm : s.link.firstMarked = some cause) :
    exec .pendingLinkFaultEntry s =
      .next { s with link := (s.link.setMark false cause).noticed (s.link.faultNotice cause) } := by
  simp only [exec, execPendingLinkFaultEntry, hm, hp, hasRoom_eq, hr, decide_true, Bool.not_false, Bool.and_self,
    if_true]
  rfl

/-- Settles O15, by the checks of a frame, then by the causes. -/
theorem badFramesAreCountedAndTold : Obligations.BadFramesAreCountedAndTold := by
  refine ⟨fun bytes s hp => ⟨fun h => ?_, fun h hc => ?_, fun h hc hl => ?_⟩, fun s => linkFault_eq s .check,
    fun s => linkFault_eq s .length, fun s => linkFault_eq s .overrun, fun s hp hr => ⟨fun hc => ?_, fun hc hl => ?_,
    fun hc hl ho => ?_⟩⟩
  · exact exec_frameReceived_bad hp (frameFault_of_short h)
  · exact exec_frameReceived_bad hp (frameFault_of_check h hc)
  · exact exec_frameReceived_bad hp (frameFault_of_length h hc hl)
  · exact exec_pendingLinkFaultEntry (cause := .check) hp hr (if_pos hc)
  · exact exec_pendingLinkFaultEntry (cause := .length) hp hr (by simp [Link.firstMarked, hc, hl])
  · exact exec_pendingLinkFaultEntry (cause := .overrun) hp hr (by simp [Link.firstMarked, hc, hl, ho])

/-! ## Frames received -/

/-- R164: the lengths the engine accepts are those of the table. -/
theorem payloadOk_iff (k : ReqKind) (p : List Byte) : payloadOk k p = true ↔ SuitsKind k p := by
  unfold payloadOk SuitsKind
  cases k <;>
    simp only [reduceCtorEq, false_and, false_or, or_false, true_and, List.mem_cons, Prod.mk.injEq, List.not_mem_nil,
      beq_iff_eq, Bool.and_eq_true, decide_eq_true_eq]

theorem payloadOk_eq_false {k : ReqKind} {p : List Byte} (h : ¬ SuitsKind k p) : payloadOk k p = false :=
  Bool.eq_false_iff.2 (mt (payloadOk_iff k p).1 h)

theorem exec_frameReceived_good (hp : s.ctl.pinHeld = false) (hf : frameFault bytes = none) :
    exec (.frameReceived bytes) s =
      .next (s.receiveRecord (field bytes 2 1) (field bytes 3 1) (field bytes 4 2) (framePayload bytes)) := by
  simp only [exec, execFrameReceived, hp, hf, Bool.false_eq_true, if_false]

section record

variable {kind stream tag : Nat} {p : List Byte}

theorem receiveRecord_credit (hk : kind = 3) :
    s.receiveRecord kind stream tag p =
      if p.length = 1 then s.takeCredit (field p 0 1) else s.linkFault .length := if_pos hk

theorem receiveRecord_overrun (hk : kind ≠ 3) (ho : 16 ≤ s.link.outstanding) :
    s.receiveRecord kind stream tag p =
      State.linkFault { s with link := { s.link with lastKind := kind, lastTag := tag } } .overrun :=
  (if_neg hk).trans (if_pos ho)

theorem receiveRecord_request (hk : kind ≠ 3) (ho : s.link.outstanding < 16) :
    s.receiveRecord kind stream tag p = s.receiveRequest kind stream tag p :=
  (if_neg hk).trans (if_neg (Nat.not_le.2 ho))

theorem receiveRequest_unknown (hk : ReqKind.ofCode kind = none) :
    s.receiveRequest kind stream tag p = { s with link := { s.link with
      outstanding := s.link.outstanding + 1
      replies := s.link.replies ++ [⟨kind, stream, tag, .refused .unknownKind, .none⟩] } } := by
  simp only [State.receiveRequest, hk]
  rfl

theorem receiveRequest_known {k : ReqKind} (hk : ReqKind.ofCode kind = some k) :
    s.receiveRequest kind stream tag p = { s with
      link :=
        if payloadOk k p = true then { s.link with
          outstanding := s.link.outstanding + 1, requests := s.link.requests ++ [⟨k, stream, tag, p⟩] }
        else { s.link with
          outstanding := s.link.outstanding + 1
          replies := s.link.replies ++ [⟨kind, stream, tag, .refused .badLength, .none⟩] } } := by
  simp only [State.receiveRequest, hk]
  split <;> rfl

end record

/-- Settles O16, by the tests of a good frame's record in their order. -/
theorem goodFramesAreReceived : Obligations.GoodFramesAreReceived := by
  intro bytes s hp hf kind tag payload more
  rw [exec_frameReceived_good hp hf]
  refine ⟨fun hk hl => ?_, fun hk hl => ?_, fun hk ho => ?_, fun hk ho hu => ?_, fun k hkind hk ho => ?_⟩
  · rw [receiveRecord_credit hk, if_pos hl]; rfl
  · rw [receiveRecord_credit hk, if_neg hl]
  · rw [receiveRecord_overrun hk ho]
  · rw [receiveRecord_request hk ho, receiveRequest_unknown (ofCode_eq_none _ hu)]
  · have hcode : ReqKind.ofCode (field bytes 2 1) = some k :=
      (congrArg _ hkind.symm).trans (ofCode_code k)
    rw [receiveRecord_request hk ho, receiveRequest_known hcode]
    refine ⟨fun hs => ?_, fun hs => ?_⟩
    · rw [if_neg (Bool.eq_false_iff.1 (payloadOk_eq_false hs))]
    · rw [if_pos ((payloadOk_iff k _).2 hs)]

/-! ## Records chosen -/

/-- R158, R159: without credit nothing is sent. -/
theorem exec_transmitStart_idle (hc : s.link.credit = 0) : exec .transmitStart s = .next s := by
  simp only [exec, execTransmitStart, hc, Nat.lt_irrefl, decide_false, Bool.and_false, Bool.false_eq_true, if_false]
  split <;> rfl

/-- R159: TRANSMIT START either leaves the state alone or begins to send a record against a credit. -/
theorem exec_transmitStart_cases (s : State) :
    exec .transmitStart s = .next s ∨
      ∃ src, exec .transmitStart s = .next (s.beginSending src) ∧ 0 < s.link.credit := by
  simp only [exec, execTransmitStart]
  split
  · next src _ =>
    by_cases h : (!s.ctl.pinHeld && s.link.tx.isNone && decide (0 < s.link.credit)) = true
    · rw [if_pos h]
      simp only [Bool.and_eq_true, decide_eq_true_eq] at h
      exact .inr ⟨src, rfl, h.2⟩
    · exact .inl (if_neg h)
  · exact .inl rfl

/-- Settles O17: the credit taken, none to spend, and one spent. -/
theorem creditIsSpentAndSaturates : Obligations.CreditIsSpentAndSaturates := by
  refine ⟨fun count s hp => ?_, fun s hc => exec_transmitStart_idle hc, fun s t h hidle hbusy => ?_⟩
  · simp only [exec, execCredit, hp, Bool.false_eq_true, if_false]
    rfl
  · obtain hsame | ⟨src, hsent, hcredit⟩ := exec_transmitStart_cases s
    · obtain rfl : s = t := Host.Outcome.next.inj (hsame.symm.trans h)
      exact absurd hidle hbusy
    · obtain rfl : s.beginSending src = t := Host.Outcome.next.inj (hsent.symm.trans h)
      exact Nat.sub_add_cancel hcredit

theorem exec_transmitStart_sends {src : TxSource} (hp : s.ctl.pinHeld = false) (ht : s.link.tx = none)
    (hc : 0 < s.link.credit) (h : s.nextRecord = some src) :
    exec .transmitStart s = .next (s.beginSending src) := by
  simp only [exec, execTransmitStart, h, hp, ht, hc, Option.isNone_none, Bool.not_false, decide_true, Bool.and_self,
    if_true]

theorem nextRecord_reply (h : s.link.replies ≠ []) : s.nextRecord = some .reply := if_pos h

theorem cls_range (n : Notice) : 2 ≤ n.cls ∧ n.cls ≤ 5 := by
  rw [header_cls]
  cases n <;> simp [Notice.header]

/-- R159: with no reply waiting, the lowest class that has a notice is served. -/
theorem nextRecord_notice {c : Nat} (hr : s.link.replies = []) (h₂ : 2 ≤ c) (h₅ : c ≤ 5)
    (hc : (firstOf c s.link.notices).isSome = true) (hlow : ∀ d < c, firstOf d s.link.notices = none) :
    s.nextRecord = some (.notice c) := by
  unfold State.nextRecord
  rw [if_neg (not_not.2 hr)]
  obtain rfl | rfl | rfl | rfl : c = 2 ∨ c = 3 ∨ c = 4 ∨ c = 5 := by omega
  · rw [if_pos hc]
  · simp only [hlow 2 (by omega), hc, Option.isSome_none, Bool.false_eq_true, if_false, if_true]
  · simp only [hlow 2 (by omega), hlow 3 (by omega), hc, Option.isSome_none, Bool.false_eq_true, if_false, if_true]
  · simp only [hlow 2 (by omega), hlow 3 (by omega), hlow 4 (by omega), hc, Option.isSome_none, Bool.false_eq_true,
      if_false, if_true]

/-- R159: with neither a reply nor a notice waiting, class 6 is served. -/
theorem nextRecord_batch (hr : s.link.replies = []) (hn : s.link.notices = []) :
    s.nextRecord = s.nextBatch.map TxSource.batch := by
  unfold State.nextRecord
  rw [hr, hn]
  rfl

/-- Settles O18, by the class of the record. -/
theorem transmitChoosesByClassAndTurn : Obligations.TransmitChoosesByClassAndTurn := by
  refine ⟨fun s hp ht hc => ⟨fun r rest hr => ?_, fun pre n post hr hq hpre hmin => ?_⟩,
    fun s n b hp ht hc hr hq hl₁ hl₆₄ hn₁ hn₆₄ hb hnext => ?_⟩
  · rw [exec_transmitStart_sends hp ht hc (nextRecord_reply (by rw [hr]; exact List.cons_ne_nil _ _))]
    simp only [State.beginSending, State.frameOf, servedAfter, hr]
    rfl
  · simp only [← header_cls] at hpre hmin ⊢
    have hfirst : firstOf n.cls s.link.notices = some n := firstOf_eq hq rfl hpre
    have hlow : ∀ d < n.cls, firstOf d s.link.notices = none := fun d hd =>
      firstOf_eq_none fun m hm he => Nat.not_lt.2 (hmin m hm) (he ▸ hd)
    have hnext : s.nextRecord = some (.notice n.cls) :=
      nextRecord_notice hr (cls_range n).1 (cls_range n).2 (by rw [hfirst]; rfl) hlow
    rw [exec_transmitStart_sends hp ht hc hnext, ← header_code, ← header_stream]
    simp only [State.beginSending, State.frameOf, servedAfter, hfirst]
    rfl
  · have hbatch : s.nextBatch = some n := nextBatch_eq hl₆₄ hn₁ hn₆₄ (by rw [hb]; rfl) fun m hm₁ hm₆₄ hm => by
      have := hnext m hm₁ hm₆₄ (Option.isSome_iff_ne_none.1 hm)
      omega
    have hrecord : s.nextRecord = some (.batch n) := by rw [nextRecord_batch hr hq, hbatch]; rfl
    rw [exec_transmitStart_sends hp ht hc hrecord]
    simp only [State.beginSending, State.frameOf, servedAfter, hb]
    rfl

/-! ## Records sent -/

theorem exec_frameTransmitted {k : Nat} {t : Tx} (ht : s.link.tx = some t) (hp : s.ctl.pinHeld = false) :
    exec (.frameTransmitted k) s = .next ((s.noteCorrected k).finishSending t.source) := by
  simp only [exec, execFrameTransmitted, ht, hp, Bool.false_eq_true, if_false]

/-- R167: a reply is that of a RESET taken where its kind and its status are. -/
theorem isReset_eq_false {r : Reply} (h : r.kind ≠ 2 ∨ r.status ≠ .done) : r.isReset = false := by
  rw [← Bool.not_eq_true]
  simp only [Reply.isReset, Bool.and_eq_true, beq_iff_eq, not_and_or]
  exact h

/-- R159: the transmitter is free again. -/
def txFreed (s : State) : State := { s with link := { s.link with tx := none } }

theorem finishSending_batch (n : Nat) : s.finishSending (.batch n) = (txFreed s).batchSent n := rfl

theorem finishSending_reply {r : Reply} {rest : List Reply} (hq : s.link.replies = r :: rest)
    (hr : r.isReset = false) :
    s.finishSending .reply = { s with link := { s.link with
      tx := none, replies := rest, outstanding := s.link.outstanding - 1 } } := by
  simp only [State.finishSending, hq, hr, Bool.false_eq_true, if_false]
  rfl

section batch

variable {n : Nat}

/-- R159: the slot's made-batch place is empty. -/
def emptied (sl : Slot) : Slot := { sl with madeBatch := none }

theorem slot_emptied : (s.setSlot n (emptied (s.slot n))).slot n = emptied (s.slot n) := by
  rw [State.slot_setSlot, if_pos rfl]

theorem lastBatchDue_emptied : (s.setSlot n (emptied (s.slot n))).lastBatchDue n = s.lastBatchDue n := by
  simp only [State.lastBatchDue, slot_emptied]
  rfl

theorem noSealBehind_emptied (h : s.NoSealBehind n) : (s.setSlot n (emptied (s.slot n))).NoSealBehind n := by
  intro hp m hm
  rw [State.slot_setSlot, if_neg hm]
  exact h hp m hm

theorem closeDue_emptied_iff (sl : Slot) :
    (emptied sl).closeDue = true ↔ (sl.state = .draining ∨ sl.state = .aborting) ∧ sl.finalMade = true ∧
      sl.reportSlot = none ∧ sl.waiting = none ∧ sl.heldReport = none := by
  rw [closeDue_iff]
  simp only [emptied, true_and]

/-- A stream whose last batch is due is not that of a FREE slot. -/
theorem emptied_ne_free_of_lastDue (h : s.lastBatchDue n = true) : emptied (s.slot n) ≠ Slot.free := by
  obtain ⟨-, -, ⟨hs, -⟩ | ⟨hs, -⟩⟩ := (lastBatchDue_iff s n).1 h <;>
    exact Slot.ne_free (by show (s.slot n).state ≠ .free; rw [hs]; decide)

/-- R113: outside SERVICE no batch follows one sent. -/
theorem batchSent_of_not_inService (h : s.inService = false) : s.batchSent n = s.setSlot n (emptied (s.slot n)) := by
  have h' : (s.setSlot n (emptied (s.slot n))).inService = false := h
  simp only [State.batchSent, ← emptied.eq_def, h', Bool.false_eq_true, if_false]

theorem batchSent_of_final (h : s.inService = true) (hf : (s.slot n).finalMade = true) :
    s.batchSent n = (s.setSlot n (emptied (s.slot n))).tryClose n := by
  have h' : (s.setSlot n (emptied (s.slot n))).inService = true := h
  have hf' : (emptied (s.slot n)).finalMade = true := hf
  simp only [State.batchSent, ← emptied.eq_def, h', slot_emptied, hf', if_true]

theorem batchSent_of_not_final (h : s.inService = true) (hf : (s.slot n).finalMade = false) :
    s.batchSent n =
      if ((s.slot n).due || s.lastBatchDue n) = true then (s.setSlot n (emptied (s.slot n))).makeBatch n
      else s.setSlot n (emptied (s.slot n)) := by
  have h' : (s.setSlot n (emptied (s.slot n))).inService = true := h
  have hf' : (emptied (s.slot n)).finalMade = false := hf
  have hd : (emptied (s.slot n)).due = (s.slot n).due := rfl
  simp only [State.batchSent, ← emptied.eq_def, h', slot_emptied, hf', hd, lastBatchDue_emptied, Bool.false_eq_true,
    if_false, if_true]

/-- R107, R109: a batch that is due is made at once, and no other. -/
theorem batchSent_ordinary (h : s.inService = true) (hf : (s.slot n).finalMade = false)
    (hl : s.lastBatchDue n = false) :
    s.batchSent n = s.setSlot n
      (if (s.slot n).due = true then (emptied (s.slot n)).batchMade false false else emptied (s.slot n)) := by
  rw [batchSent_of_not_final h hf, hl, Bool.or_false]
  by_cases hd : (s.slot n).due = true
  · have hfree : emptied (s.slot n) ≠ Slot.free := fun he => by
      have : Slot.free.due = true := he ▸ hd
      exact absurd this (by decide)
    rw [if_pos hd, if_pos hd, makeBatch_of_not_due _ _ (lastBatchDue_emptied.trans hl), slot_emptied,
      setSlot_setSlot _ _ _ hfree]
  · rw [if_neg hd, if_neg hd]

theorem batchSent_of_lastDue (h : s.inService = true) (hl : s.lastBatchDue n = true) :
    s.batchSent n = (s.setSlot n (emptied (s.slot n))).makeBatch n := by
  obtain ⟨hf, -⟩ := (lastBatchDue_iff s n).1 hl
  rw [batchSent_of_not_final h hf, hl, Bool.or_true, if_pos rfl]

/-- R110: the last batch of a closing stream. -/
theorem batchSent_closing (h : s.inService = true) (hl : s.lastBatchDue n = true)
    (hs : (s.slot n).state = .draining) :
    s.batchSent n = s.setSlot n ((emptied (s.slot n)).batchMade true false) := by
  have hs' : ((s.setSlot n (emptied (s.slot n))).slot n).state ≠ .aborting := by
    rw [slot_emptied]
    show (s.slot n).state ≠ .aborting
    rw [hs]
    decide
  rw [batchSent_of_lastDue h hl, makeBatch_of_closing _ _ (lastBatchDue_emptied.trans hl) hs', slot_emptied,
    setSlot_setSlot _ _ _ (emptied_ne_free_of_lastDue hl)]

/-- R110, R18: the last batch of an aborted stream, whose reports are discarded. -/
theorem batchSent_aborting (h : s.inService = true) (hl : s.lastBatchDue n = true)
    (hs : (s.slot n).state = .aborting) (hn : s.NoSealBehind n) :
    s.batchSent n = { s.discarded n with
      slots := (s.setSlot n ((emptied (s.slot n)).batchMade true true).reportsDiscarded).slots } := by
  have hs' : ((s.setSlot n (emptied (s.slot n))).slot n).state = .aborting := by rw [slot_emptied]; exact hs
  rw [batchSent_of_lastDue h hl,
    makeBatch_of_aborting _ _ (lastBatchDue_emptied.trans hl) hs' (noSealBehind_emptied hn), slot_emptied,
    setSlot_setSlot _ _ _ (emptied_ne_free_of_lastDue hl)]
  rfl

/-- R16, R18: behind the last batch STREAM CLOSED enters, where it is due and has room. -/
theorem batchSent_closed {b : Nat} (h : s.inService = true) (hf : (s.slot n).finalMade = true)
    (hb : (s.slot n).branch = some b) (hs : (s.slot n).state = .draining ∨ (s.slot n).state = .aborting)
    (hc : (s.slot n).reportSlot = none ∧ (s.slot n).waiting = none ∧ (s.slot n).heldReport = none)
    (hl : s.laneHolds n = false) (hr : s.link.notices.length < 128) :
    s.batchSent n = s.streamClosed n b (s.slot n) := by
  have hfree : emptied (s.slot n) ≠ Slot.free :=
    Slot.ne_free (by show (s.slot n).state ≠ .free; rcases hs with hs | hs <;> rw [hs] <;> decide)
  have hc' : ((s.setSlot n (emptied (s.slot n))).slot n).closeDue = true := by
    rw [slot_emptied]
    exact (closeDue_emptied_iff _).2 ⟨hs, hf, hc⟩
  have hb' : ((s.setSlot n (emptied (s.slot n))).slot n).branch = some b := by rw [slot_emptied]; exact hb
  have h' : (s.setSlot n (emptied (s.slot n))).inService = true := h
  have hr' : (s.setSlot n (emptied (s.slot n))).link.notices.length < 128 := hr
  have hl' : (s.setSlot n (emptied (s.slot n))).laneHolds n = false := hl
  rw [batchSent_of_final h hf, tryClose_eq _ _ b h' hc' hr' hb' hl', slot_emptied, streamClosed_setSlot _ _ _ _ hfree]
  rfl

/-- R16, R18: or the slot waits, for its reports or for room. -/
theorem batchSent_waiting (h : s.inService = true) (hf : (s.slot n).finalMade = true)
    (hw : ¬ ((s.slot n).reportSlot = none ∧ (s.slot n).waiting = none ∧ (s.slot n).heldReport = none) ∨
      128 ≤ s.link.notices.length) :
    s.batchSent n = s.setSlot n (emptied (s.slot n)) := by
  rw [batchSent_of_final h hf]
  refine tryClose_eq_self _ _ (hw.imp_left fun hc => ?_)
  rw [slot_emptied, ← Bool.not_eq_true, closeDue_emptied_iff]
  exact fun hdue => hc hdue.2.2

end batch

/-- Settles O19, by the kind of record sent, and for a batch by what is due behind it. -/
theorem sentRecordsLeaveTheirPlaces : Obligations.SentRecordsLeaveTheirPlaces := by
  intro k s t ht hp s'
  rw [exec_frameTransmitted ht hp]
  refine ⟨fun r rest hsrc hq hr => ?_, fun c pre n post hsrc hq hn hpre => ?_, fun n hsrc => ?_⟩
  · rw [hsrc, finishSending_reply (s := s.noteCorrected k) hq (isReset_eq_false hr)]
    rfl
  · simp only [← header_cls] at hn hpre
    rw [hsrc, State.finishSending]
    exact congrArg (fun q => Host.Outcome.next { s' with link := { s.link with tx := none, notices := q } })
       (dropNotice_eq hq hn hpre)
  · rw [hsrc, finishSending_batch]
    have hi : s.ctl.dev = .service → (txFreed (s.noteCorrected k)).inService = true := fun hd => inService_iff.2 ⟨hd, hp⟩
    refine ⟨fun hd => ?_, fun hd hf => ⟨fun hl => ?_, fun hl hs => ?_, fun hl hs hn => ?_⟩, fun b hd hf hb hs =>
      ⟨fun hc hl hr => ?_, fun hc => ?_⟩⟩
    · exact congrArg _ (batchSent_of_not_inService (Bool.eq_false_iff.2 fun h => hd (inService_iff.1 h).1))
    · exact congrArg _
        (batchSent_ordinary (hi hd) hf (Bool.eq_false_iff.2 (mt (lastBatchDue_iff (txFreed s) n).1 hl)))
    · exact congrArg _ (batchSent_closing (hi hd) ((lastBatchDue_iff s n).2 hl) hs)
    · exact congrArg _ (batchSent_aborting (hi hd) ((lastBatchDue_iff s n).2 hl) hs hn)
    · exact congrArg _ (batchSent_closed (hi hd) hf hb hs hc hl hr)
    · exact congrArg _ (batchSent_waiting (hi hd) hf hc)

end Sys2Proof.RecordLink

/-! PROOFS. The device states (R165): what can change them, what stands still in FAULT (R176), and that the reset pin
holds the engine (R166). The commands are taken by the conditions under which they act: a request row, a command of
the blocks that work in SERVICE alone, the completion of an operation on index memory, and the rest one by one. -/

namespace Sys2Proof.DeviceStates

open Machine BranchStreams HeldEvents RecordLink

variable {s t u : State} {c : Instr} {r : Request} {k : Nat} {bad : Option Nat}

/-! ## Commands that act under a condition on the device state -/

theorem inService_of_dev (h : s.ctl.dev ≠ .service) : s.inService = false :=
  Bool.eq_false_iff.2 fun hs => h (inService_iff.1 hs).1

theorem inService_of_pinHeld (h : s.ctl.pinHeld = true) : s.inService = false :=
  Bool.eq_false_iff.2 fun hs => Bool.eq_false_iff.1 (inService_iff.1 hs).2 h

/-- R33, R39, R77, R104, R125, R160: the commands of the blocks that work in SERVICE alone. -/
def serviceOnly : Instr → Bool
  | .tick _ | .pacingMatch _ _ | .markTimerLimit _ _ | .grant | .laneCut _ | .laneLookupJoin _ | .laneMarkMarker _ _
  | .laneEndMarker _ | .laneEntryFinish _ _ | .lookupPortGrant | .lookupApply _ | .releasePortGrant | .sweepPortGrant
  | .heldStreamClosedEntry _ | .heldReportEntry _ | .heldAckReport | .heldSurgeEntry _ | .heldReleaseCompleteEntry =>
    true
  | _ => false

/-- Outside SERVICE, or while the engine is held in reset, none of them is an event. -/
theorem exec_serviceOnly (hc : serviceOnly c = true) (hs : s.inService = false) : exec c s = .next s := by
  cases c <;> simp only [serviceOnly, Bool.false_eq_true] at hc <;> simp only [exec]
  case tick => simp only [execTick, hs, Bool.false_eq_true, if_false]
  case pacingMatch => simp only [execPacingMatch, hs, Bool.false_and, Bool.false_eq_true, if_false]
  case markTimerLimit => simp only [execMarkTimerLimit, hs, Bool.false_and, Bool.false_eq_true, if_false]
  case grant => simp only [execGrant, hs, Bool.false_and, Bool.false_eq_true, if_false]; split <;> rfl
  case laneCut =>
    simp only [execLaneCut, hs, Bool.false_eq_true, if_false]
    repeat' split
    all_goals rfl
  case laneLookupJoin =>
    simp only [execLaneLookupJoin, hs, Bool.false_and, Bool.false_eq_true, if_false]
    repeat' split
    all_goals rfl
  case laneMarkMarker =>
    simp only [execLaneMarkMarker, hs, Bool.false_and, Bool.false_eq_true, if_false]
    repeat' split
    all_goals rfl
  case laneEndMarker =>
    simp only [execLaneEndMarker, hs, Bool.false_and, Bool.false_eq_true, if_false]
    repeat' split
    all_goals rfl
  case laneEntryFinish => simp only [execLaneEntryFinish, hs, Bool.false_eq_true, if_false]; split <;> rfl
  case lookupPortGrant =>
    simp only [execLookupPortGrant, hs, Bool.false_and, Bool.false_eq_true, if_false]; split <;> rfl
  case lookupApply => simp only [execLookupApply, hs, Bool.false_and, Bool.false_eq_true, if_false]
  case releasePortGrant =>
    simp only [execReleasePortGrant, hs, Bool.false_and, Bool.false_eq_true, if_false]; split <;> rfl
  case sweepPortGrant => simp only [execSweepPortGrant, hs, Bool.false_and, Bool.false_eq_true, if_false]
  case heldStreamClosedEntry =>
    simp only [execHeldStreamClosedEntry, State.tryClose, hs, Bool.false_and, Bool.false_eq_true, if_false]
  case heldReportEntry =>
    simp only [execHeldReportEntry, hs, Bool.false_and, Bool.false_eq_true, if_false]; split <;> rfl
  case heldAckReport =>
    simp only [execHeldAckReport, hs, Bool.and_false, Bool.false_and, Bool.false_eq_true, if_false]; split <;> rfl
  case heldSurgeEntry =>
    simp only [execHeldSurgeEntry, hs, Bool.false_and, Bool.false_eq_true, if_false]; split <;> rfl
  case heldReleaseCompleteEntry =>
    simp only [execHeldReleaseCompleteEntry, hs, Bool.false_and, Bool.false_eq_true, if_false]

/-- R77: the completions of a read or an operation on index memory, with the corrected errors of their reads. -/
def completion : Instr → Option Nat
  | .lookupReadDone _ k | .releaseOpDone k | .sweepOpDone k | .seedOpDone k _ => some k
  | _ => none

/-- R77: the result of a read or an operation that ends outside SERVICE and RESTORE. -/
def discarded (s : State) (k : Nat) : Host.Outcome State Fault Refusal :=
  if s.inFault then .next (s.noteCorrected k) else .next s

/-- R77: where the engine neither works nor restores, a completion is no event, or its result is discarded. -/
theorem exec_completion (hc : completion c = some k) (hs : s.inService = false)
    (hr : ¬ (s.ctl.dev = .restore ∧ s.ctl.pinHeld = false)) :
    exec c s = .next s ∨ exec c s = discarded s k := by
  cases c <;> simp only [completion, reduceCtorEq, Option.some.injEq] at hc <;> subst hc <;> simp only [exec]
  case lookupReadDone =>
    simp only [execLookupReadDone, hs, Bool.false_eq_true, if_false]
    split
    · split
      · exact .inr rfl
      · exact .inl rfl
    · exact .inl rfl
  case seedOpDone =>
    simp only [execSeedOpDone, hr, if_false]
    split
    · exact .inr rfl
    · exact .inl rfl
  case releaseOpDone =>
    simp only [execReleaseOpDone, hs, Bool.false_and, Bool.false_eq_true, if_false]
    split
    · exact .inr rfl
    · exact .inl rfl
  case sweepOpDone =>
    simp only [execSweepOpDone, hs, Bool.false_and, Bool.false_eq_true, if_false]
    split
    · exact .inr rfl
    · exact .inl rfl

/-! ## The reset pin -/

theorem discarded_of_pinHeld (h : s.ctl.pinHeld = true) : discarded s k = .next s := by
  simp only [discarded, State.inFault, h, Bool.not_true, Bool.and_false, Bool.false_eq_true, if_false]

/-- R156: while the pin is held no owner takes a request. -/
theorem exec_row_of_pinHeld {kind : ReqKind} {take : Request → State → State} (hc : rowTaking c = some (kind, take))
    (h : s.ctl.pinHeld = true) : exec c s = .next s := by
  simp only [exec_requestRow hc, headRequest_pinHeld h]

/-- Settles O10, by the conditions under which each command acts. -/
theorem pinHoldsTheEngineInReset : Obligations.PinHoldsTheEngineInReset := by
  intro c s h hpin
  by_cases hs : serviceOnly c = true
  · exact exec_serviceOnly hs (inService_of_pinHeld h)
  cases hk : completion c with
  | some k =>
    have hno : ¬ (s.ctl.dev = .restore ∧ s.ctl.pinHeld = false) := by simp [h]
    exact (exec_completion hk (inService_of_pinHeld h) hno).elim id (·.trans (discarded_of_pinHeld h))
  | none =>
    cases hrow : rowTaking c with
    | some row => exact exec_row_of_pinHeld hrow h
    | none =>
      cases c <;> simp only [serviceOnly, completion, rowTaking, reduceCtorEq, not_true] at hs hk hrow <;>
        simp only [exec]
      case powerOnReset => exact absurd (by simp) hpin
      case resetPinAssert => exact absurd (by simp) hpin
      case resetPinRelease => exact absurd (by simp) hpin
      case indexMemoryClearDone => simp [execIndexMemoryClearDone, h]
      case frameReceived => exact if_pos h
      case credit => exact if_pos h
      case settingsProgramDone => simp only [execSettingsProgramDone, h, if_true]; split <;> rfl
      case transmitStart => simp [execTransmitStart, h]; split <;> rfl
      case frameTransmitted => simp only [execFrameTransmitted, h, if_true]; split <;> rfl
      case indexMemoryError => exact if_pos h
      case heldReadyEntry => simp [execHeldReadyEntry, h]
      case heldDataRefusedEntry => simp [execHeldDataRefusedEntry, h]; split <;> rfl
      case heldContainerNoticeEntry => exact if_pos (.inl h)
      case heldSettingsSavedEntry => simp [execHeldSettingsSavedEntry, h]; split <;> rfl
      case pendingFaultEntry => simp [execPendingFaultEntry, h]; split <;> rfl
      case pendingLinkFaultEntry => simp [execPendingLinkFaultEntry, h]; split <;> rfl

/-! ## FAULT -/

/-- R176: the lanes, the scheduler, the index unit, the walker, the placement unit, the branch records and the settings
stand as they were, and so do the slots but for a batch that has been sent. -/
structure Still (s t : State) : Prop where
  lanes : t.lanes = s.lanes
  waitOrder : t.waitOrder = s.waitOrder
  sched : t.sched = s.sched
  index : t.index = s.index
  walker : t.walker = s.walker
  place : t.place = s.place
  monitor : t.monitor = s.monitor
  settings : t.ctl.settings = s.ctl.settings
  slots : ∀ n, t.slot n = s.slot n ∨ t.slot n = { s.slot n with madeBatch := none }

/-- The record link, a held DATA REFUSED and the rest of the controller are not among them. -/
theorem still_outside (k : Link) (c : Ctl) (d : Option Notice) (f : Nat) (hc : c.settings = s.ctl.settings) :
    Still s { s with link := k, ctl := c, dataHeld := d, freeNext := f } :=
  ⟨rfl, rfl, rfl, rfl, rfl, rfl, rfl, hc, fun _ => .inl rfl⟩

theorem still_refl (s : State) : Still s s := still_outside _ _ _ _ rfl

theorem Still.trans (h : Still s t) (h' : Still t u) : Still s u where
  lanes := h'.lanes.trans h.lanes
  waitOrder := h'.waitOrder.trans h.waitOrder
  sched := h'.sched.trans h.sched
  index := h'.index.trans h.index
  walker := h'.walker.trans h.walker
  place := h'.place.trans h.place
  monitor := h'.monitor.trans h.monitor
  settings := h'.settings.trans h.settings
  slots n := by rcases h.slots n with h | h <;> rcases h'.slots n with h' | h' <;> simp [h, h']

/-- Whatever the command brings about, short of a reset, those stand as they were. -/
def Stands (s : State) (o : Host.Outcome State Fault Refusal) : Prop :=
  ∀ t, o = .next t → t.ctl.dev = .fault → Still s t

theorem stands_next (h : Still s t) : Stands s (.next t) := fun _ ht _ => Host.Outcome.next.inj ht ▸ h

theorem stands_idle : Stands s (.next s) := stands_next (still_refl s)

theorem stands_ite {p : Prop} [Decidable p] {o o' : Host.Outcome State Fault Refusal} (h : Stands s o)
    (h' : Stands s o') : Stands s (if p then o else o') := by
  split
  · exact h
  · exact h'

/-- R166: a reset takes the device out of FAULT. -/
theorem stands_resetTo (cause : ResetCause) (pin : Bool) : Stands s (.next (u.resetTo cause pin)) :=
  fun _ ht hd => by cases ht; cases hd

/-! ### Requests -/

/-- R176: in FAULT every request but STATUS, RESET and DATA is refused BAD-STATE, its reads' corrected errors noted. -/
theorem row_refused {kind : ReqKind} {take : Request → State → State} (hc : rowTaking c = some (kind, take))
    (hk : kind ∉ [.status, .reset, .data]) (hd : s.ctl.dev = .fault) (r : Request) :
    ∃ n : Ctl, n.settings = s.ctl.settings ∧ take r s = State.refuse { s with ctl := n } r .badState := by
  have hcheck : s.streamCheck r = some .badState := if_pos (by simp [hd])
  have plain : ∀ {t}, t = s.refuse r .badState →
      ∃ n : Ctl, n.settings = s.ctl.settings ∧ t = State.refuse { s with ctl := n } r .badState :=
    fun h => ⟨s.ctl, rfl, h⟩
  have noted : ∀ {t k}, t = (s.noteCorrected k).refuse r .badState →
      ∃ n : Ctl, n.settings = s.ctl.settings ∧ t = State.refuse { s with ctl := n } r .badState :=
    fun {_ k} h => ⟨(s.noteCorrected k).ctl, rfl, h⟩
  cases c <;> cases hc
  case status => exact absurd (by simp) hk
  case reset => exact absurd (by simp) hk
  case data => exact absurd (by simp) hk
  case setSetting => exact plain (if_pos (by simp [hd, DevState.takesSettings]))
  case saveSettings => exact plain (if_pos (by simp [hd, DevState.takesSettings]))
  case declare => exact noted (if_pos (by simp [hd]))
  case seed => exact noted (if_pos (by simp [hd]))
  case beginService => exact noted (if_pos (by simp [hd]))
  case openStream => exact plain (if_pos (by simp [hd]))
  case mark => exact plain (take_of_streamCheck (by simp [addressedTakings]) hcheck)
  case readReport => exact plain (take_of_streamCheck (by simp [addressedTakings]) hcheck)
  case ackReport => exact plain (take_of_streamCheck (by simp [addressedTakings]) hcheck)
  case retime => exact plain (take_of_streamCheck (by simp [addressedTakings]) hcheck)
  case setWeight => exact plain (take_of_streamCheck (by simp [addressedTakings]) hcheck)
  case setPacing => exact plain (take_of_streamCheck (by simp [addressedTakings]) hcheck)
  case snapshot => exact plain (take_of_streamCheck (by simp [addressedTakings]) hcheck)
  case close => exact plain (take_of_streamCheck (by simp [addressedTakings]) hcheck)
  case abort => exact noted (take_of_streamCheck (by simp [addressedTakings]) hcheck)
  case durable => exact noted (if_pos (by simp [hd]))
  case lost => exact noted (if_pos (by simp [hd]))
  case free => exact noted (if_pos (by simp [hd]))
  case flush => exact noted (if_pos (by simp [hd]))
  case queryContainer => exact noted (if_pos (by simp [hd]))
  case release => exact plain (if_pos (by simp [hd]))
  case clearHold => exact plain (if_pos (by simp [hd]))
  case resetBaseline => exact plain (if_pos (by simp [hd]))
  case queryBranch => exact plain (if_pos (by simp [hd]))
  -- SEAL is left: its name is a keyword, which a case cannot give.
  exact noted (take_of_streamCheck (by simp [addressedTakings]) hcheck)

/-- R12: DATA is dropped in FAULT. -/
theorem still_takeData (hd : s.ctl.dev = .fault) : Still s (takeData r s) := by
  have hr : s.dataReason r = some .badState := by simp [State.dataReason, State.streamCheck, hd]
  simp only [takeData, hr]
  split
  · exact still_outside _ _ _ _ rfl
  · exact still_outside _ _ _ _ rfl

/-- R167: RESET is taken in FAULT. -/
theorem still_takeReset : Still s (takeReset r s) := by
  unfold takeReset
  split
  · exact still_outside _ _ _ _ rfl
  · exact still_outside _ _ _ _ rfl

theorem row_still {kind : ReqKind} {take : Request → State → State} (hc : rowTaking c = some (kind, take))
    (hd : s.ctl.dev = .fault) (r : Request) : Still s (take r s) := by
  by_cases hk : kind ∈ [.status, .reset, .data]
  · cases c <;> cases hc <;> simp only [List.mem_cons, List.not_mem_nil, reduceCtorEq, or_self] at hk
    · exact still_outside _ _ _ _ rfl
    · exact still_takeReset
    · exact still_takeData hd
  · obtain ⟨n, hn, h⟩ := row_refused hc hk hd r
    rw [h]
    exact still_outside _ _ _ _ hn

theorem row_stands {kind : ReqKind} {take : Request → State → State} (hc : rowTaking c = some (kind, take))
    (hd : s.ctl.dev = .fault) : Stands s (exec c s) := by
  rw [exec_requestRow hc]
  split
  · exact stands_next (row_still hc hd _)
  · exact stands_idle

/-! ### The record link -/

theorem still_linkFault (cause : LinkCause) : Still s (s.linkFault cause) := by
  rw [linkFault_eq]
  exact still_outside _ _ _ _ rfl

theorem still_receiveRecord (kind stream tag : Nat) (payload : List Byte) :
    Still s (s.receiveRecord kind stream tag payload) := by
  have hover : ∀ k : Link, Still s (State.linkFault { s with link := k } .overrun) := fun k => by
    rw [linkFault_eq]
    exact still_outside _ _ _ _ rfl
  unfold State.receiveRecord State.receiveRequest
  dsimp only
  repeat' split
  · exact still_outside _ _ _ _ rfl
  · exact still_linkFault _
  · exact hover _
  · exact still_outside _ _ _ _ rfl
  · exact still_outside _ _ _ _ rfl
  · exact still_outside _ _ _ _ rfl

theorem stands_frameReceived (bytes : List Byte) : Stands s (execFrameReceived bytes s) := by
  unfold execFrameReceived
  refine stands_ite stands_idle ?_
  split
  · exact stands_next (still_linkFault _)
  · exact stands_next (still_receiveRecord _ _ _ _)

theorem stands_transmitStart : Stands s (execTransmitStart s) := by
  unfold execTransmitStart
  split
  · exact stands_ite (stands_next (still_outside _ _ _ _ rfl)) stands_idle
  · exact stands_idle

theorem stands_pendingLinkFaultEntry : Stands s (execPendingLinkFaultEntry s) := by
  unfold execPendingLinkFaultEntry
  split
  · exact stands_ite (stands_next (still_outside _ _ _ _ rfl)) stands_idle
  · exact stands_idle

theorem stands_heldDataRefusedEntry : Stands s (execHeldDataRefusedEntry s) := by
  unfold execHeldDataRefusedEntry
  split
  · exact stands_ite (stands_next (still_outside _ _ _ _ rfl)) stands_idle
  · exact stands_idle

/-- R113: a batch sent in FAULT leaves its place, and none is made. -/
theorem still_batchSent (hd : s.ctl.dev = .fault) (n : Nat) : Still s (s.batchSent n) := by
  rw [batchSent_of_not_inService (inService_of_dev (by simp [hd]))]
  refine ⟨rfl, rfl, rfl, rfl, rfl, rfl, rfl, rfl, fun m => ?_⟩
  rw [State.slot_setSlot]
  split
  · next h => exact .inr (by rw [h]; rfl)
  · exact .inl rfl

theorem stands_finishSending (hu : Still s u) (hd : u.ctl.dev = .fault) (src : TxSource) :
    Stands s (.next (u.finishSending src)) := by
  cases src with
  | reply =>
    simp only [State.finishSending]
    split
    · split
      · exact stands_resetTo _ _
      · exact stands_next (hu.trans (still_outside _ _ _ _ rfl))
    · exact stands_next (hu.trans (still_outside _ _ _ _ rfl))
  | notice cls => exact stands_next (hu.trans (still_outside _ _ _ _ rfl))
  | batch n =>
    have hfreed : Still u (txFreed u) := still_outside _ _ _ _ rfl
    rw [finishSending_batch]
    exact stands_next (hu.trans (hfreed.trans (still_batchSent (s := txFreed u) hd n)))

theorem stands_frameTransmitted (hd : s.ctl.dev = .fault) : Stands s (execFrameTransmitted s k) := by
  have hnoted : Still s (s.noteCorrected k) := still_outside _ _ _ _ rfl
  unfold execFrameTransmitted
  split
  · exact stands_ite stands_idle (stands_finishSending hnoted hd _)
  · exact stands_idle

/-! ### The controller -/

theorem still_makeSaved (w : Settings) : Still s (s.makeSaved w) := by
  unfold State.makeSaved
  split
  · exact still_outside _ _ _ _ rfl
  · exact still_outside _ _ _ _ rfl

theorem stands_settingsProgramDone : Stands s (execSettingsProgramDone s) := by
  unfold execSettingsProgramDone
  split
  · refine stands_ite stands_idle (stands_next (Still.trans ?_ (still_makeSaved _)))
    exact still_outside _ _ _ _ rfl
  · exact stands_idle

theorem stands_heldSettingsSavedEntry : Stands s (execHeldSettingsSavedEntry s) := by
  unfold execHeldSettingsSavedEntry
  split
  · exact stands_ite (stands_next (still_makeSaved _)) stands_idle
  · exact stands_idle

theorem stands_pendingFaultEntry : Stands s (execPendingFaultEntry s) := by
  unfold execPendingFaultEntry
  split
  · exact stands_ite (stands_next (still_outside _ _ _ _ rfl)) stands_idle
  · exact stands_idle

/-- R77: in FAULT a further error is only counted. -/
theorem stands_indexMemoryError (hd : s.ctl.dev = .fault) : Stands s (execIndexMemoryError s) := by
  simp only [execIndexMemoryError, hd]
  exact stands_ite stands_idle (stands_next (still_outside _ _ _ _ rfl))

/-- R96: no held container notice enters in FAULT. -/
theorem exec_heldContainerNoticeEntry_of_fault (hd : s.ctl.dev = .fault) :
    execHeldContainerNoticeEntry k bad s = .next s := by
  simp only [execHeldContainerNoticeEntry, hd, ite_self]

theorem stands_discarded : Stands s (discarded s k) := stands_ite (stands_next (still_outside _ _ _ _ rfl)) stands_idle

/-! ### Every command -/

/-- R176: every command short of a reset lets the engine stand still in FAULT. -/
theorem exec_stands (hd : s.ctl.dev = .fault) (c : Instr) : Stands s (exec c s) := by
  have hi : s.inService = false := inService_of_dev (by simp [hd])
  by_cases hs : serviceOnly c = true
  · rw [exec_serviceOnly hs hi]
    exact stands_idle
  cases hk : completion c with
  | some k =>
    obtain h | h := exec_completion hk hi (by simp [hd])
    · exact h ▸ stands_idle
    · exact h ▸ stands_discarded
  | none =>
    cases hrow : rowTaking c with
    | some row => exact row_stands hrow hd
    | none =>
      have hns : ¬ (s.ctl.dev = .starting) := by simp [hd]
      cases c <;> simp only [serviceOnly, completion, rowTaking, reduceCtorEq, not_true] at hs hk hrow <;>
        simp only [exec]
      case powerOnReset => exact stands_resetTo _ _
      case resetPinAssert => exact stands_resetTo _ _
      case resetPinRelease => exact stands_ite (stands_resetTo _ _) stands_idle
      case indexMemoryClearDone => rw [execIndexMemoryClearDone, if_neg (fun h => hns h.1)]; exact stands_idle
      case frameReceived bytes => exact stands_frameReceived bytes
      case credit => exact stands_ite stands_idle (stands_next (still_outside _ _ _ _ rfl))
      case settingsProgramDone => exact stands_settingsProgramDone
      case transmitStart => exact stands_transmitStart
      case frameTransmitted => exact stands_frameTransmitted hd
      case indexMemoryError => exact stands_indexMemoryError hd
      case heldReadyEntry => rw [execHeldReadyEntry, if_neg (fun h => hns h.1)]; exact stands_idle
      case heldDataRefusedEntry => exact stands_heldDataRefusedEntry
      case heldContainerNoticeEntry => rw [exec_heldContainerNoticeEntry_of_fault hd]; exact stands_idle
      case heldSettingsSavedEntry => exact stands_heldSettingsSavedEntry
      case pendingFaultEntry => exact stands_pendingFaultEntry
      case pendingLinkFaultEntry => exact stands_pendingLinkFaultEntry

/-- Settles O9: what stands still under every command. -/
theorem faultStopsTheEngine : Obligations.FaultStopsTheEngine := fun c _ t hd hx ht =>
  have h := exec_stands hd c t hx ht
  ⟨h.lanes, h.waitOrder, h.sched, h.index, h.walker, h.place, h.monitor, h.settings, h.slots⟩

/-! ## Changes of the device state -/

/-- The table of R165: the change from `s` to `t` that the command brings about has one of its causes. -/
def Caused (c : Instr) (s t : State) : Prop :=
  (t.ctl.dev = .starting ∧
    (c ∈ [.powerOnReset, .resetPinAssert, .resetPinRelease] ∨ ∃ k, c = .frameTransmitted k)) ∨
  (s.ctl.dev = .starting ∧ t.ctl.dev = .restore ∧ c ∈ [.indexMemoryClearDone, .heldReadyEntry]) ∨
  (s.ctl.dev = .restore ∧ t.ctl.dev = .service ∧
    ((∃ k b, c = .beginService k b) ∨ ∃ k b, c = .heldContainerNoticeEntry k b)) ∨
  ((s.ctl.dev = .restore ∨ s.ctl.dev = .service) ∧ t.ctl.dev = .fault ∧ t.ctl.faultCause = true ∧
    (c = .indexMemoryError ∨ ∃ k b, c ∈ [.seed k (some b), .seedOpDone k (some b), .beginService k (some b),
      .heldContainerNoticeEntry k (some b)]))

/-- Whatever the command brings about, the device state stays, or changes for a cause of the table. -/
def Obeys (c : Instr) (s : State) (o : Host.Outcome State Fault Refusal) : Prop :=
  ∀ t, o = .next t → t.ctl.dev = s.ctl.dev ∨ Caused c s t

theorem obeys_next (h : t.ctl.dev = s.ctl.dev ∨ Caused c s t) : Obeys c s (.next t) :=
  fun _ ht => Host.Outcome.next.inj ht ▸ h

theorem obeys_same (h : t.ctl.dev = s.ctl.dev) : Obeys c s (.next t) := obeys_next (.inl h)

theorem obeys_idle : Obeys c s (.next s) := obeys_same rfl

theorem obeys_of_rests {o : Host.Outcome State Fault Refusal} (h : Rests s o) : Obeys c s o :=
  fun t ht => .inl (h t ht).dev

theorem obeys_ite {p : Prop} [Decidable p] {o o' : Host.Outcome State Fault Refusal} (h : p → Obeys c s o)
    (h' : Obeys c s o') : Obeys c s (if p then o else o') := by
  split
  · next hp => exact h hp
  · exact h'

/-! ### The table's causes -/

/-- R166: a reset enters STARTING. -/
theorem obeys_resetTo (cause : ResetCause) (pin : Bool)
    (hc : c ∈ [.powerOnReset, .resetPinAssert, .resetPinRelease] ∨ ∃ k, c = .frameTransmitted k) :
    Obeys c s (.next (u.resetTo cause pin)) :=
  obeys_next (.inr (.inl ⟨rfl, hc⟩))

/-- R168: READY enters with RESTORE, or waits. -/
theorem dev_makeReady (s : State) : s.makeReady.ctl.dev = s.ctl.dev ∨ s.makeReady.ctl.dev = .restore := by
  unfold State.makeReady
  split
  · exact .inr rfl
  · exact .inl rfl

theorem obeys_makeReady (hs : s.ctl.dev = .starting) (hu : u.ctl.dev = s.ctl.dev)
    (hc : c ∈ [.indexMemoryClearDone, .heldReadyEntry]) : Obeys c s (.next u.makeReady) :=
  obeys_next ((dev_makeReady u).imp (·.trans hu) fun h => .inr (.inl ⟨hs, h, hc⟩))

/-- R176: what an entry into FAULT leaves. -/
theorem enterFault_fault (s : State) : s.enterFault.ctl.dev = .fault ∧ s.enterFault.ctl.faultCause = true := by
  unfold State.enterFault
  dsimp only
  split
  · exact ⟨rfl, rfl⟩
  · exact ⟨rfl, rfl⟩

/-- The device state has stayed; or, where the read named by `bad` meets an error, the device is in FAULT. -/
def StaysOrFails (bad : Option Nat) (s t : State) : Prop :=
  t.ctl.dev = s.ctl.dev ∨ bad.isSome = true ∧ t.ctl.dev = .fault ∧ t.ctl.faultCause = true

/-- R173: a SEED that goes on. -/
theorem runSeed_staysOrFails (s : State) (bad : Option Nat) (w : SeedWork) (es : List SeedEntry) :
    StaysOrFails bad s (s.runSeed bad w es) := by
  induction es generalizing bad w with
  | nil =>
    unfold State.runSeed
    dsimp only
    split <;> exact .inl rfl
  | cons e es ih =>
    have hlater : ∀ w', StaysOrFails bad s (s.runSeed (bad.map (· - 1)) w' es) := fun w' => by
      simpa only [StaysOrFails, Option.isSome_map] using ih (bad.map (· - 1)) w'
    unfold State.runSeed
    split
    · next hb => exact .inr ⟨by rw [hb]; rfl, enterFault_fault _⟩
    · split
      · exact hlater _
      · split
        · exact hlater _
        · exact .inl rfl

theorem dev_takeSeedEntry (s : State) (e : SeedEntry) (count : Nat) :
    (s.takeSeedEntry e count).ctl.dev = s.ctl.dev :=
  (State.Aside.after (aside_setContainer _ _ _) (aside_insertEntry s _ count)).dev

/-- R173: the operation of the entry in hand, and the SEED that goes on after it. -/
theorem seedOp_staysOrFails : StaysOrFails bad s (s.seedOp bad) := by
  unfold State.seedOp
  split
  · split
    · dsimp only
      split
      · exact runSeed_staysOrFails _ _ _ _
      · split
        · exact (runSeed_staysOrFails _ _ _ _).imp_left fun h => h.trans (dev_takeSeedEntry _ _ _)
        · exact runSeed_staysOrFails _ _ _ _
    · exact .inl rfl
  · exact .inl rfl

/-- R174: step 1 of BEGIN SERVICE. -/
theorem ctl_reclaimRun (s : State) (made : Nat) (ps : List (Nat × Container)) :
    (s.reclaimRun made ps).1.ctl = s.ctl := by
  induction ps generalizing s made with
  | nil => rfl
  | cons p ps ih =>
    unfold State.reclaimRun
    repeat' split
    · exact ih _ _
    · rfl
    · exact ih _ _

/-- R174: step 2 enters SERVICE. -/
theorem dev_enterService (s : State) (made : Nat) : (s.enterService made).ctl.dev = .service := by
  unfold State.enterService
  dsimp only
  split <;> rfl

/-- R174: BEGIN SERVICE enters SERVICE, or waits, or ends in FAULT at the read named. -/
theorem runBegin_dev (s : State) (made : Nat) (bad : Option Nat) :
    (s.runBegin made bad).ctl.dev = .service ∨ StaysOrFails bad s (s.runBegin made bad) := by
  have hdev := congrArg Ctl.dev (ctl_reclaimRun s made (recordsBefore bad s.place.containers))
  unfold State.runBegin
  split
  · next heq =>
    rw [heq] at hdev
    exact .inr (.inl hdev)
  · split
    · next hb => exact .inr (.inr ⟨hb, enterFault_fault _⟩)
    · exact .inl (dev_enterService _ _)

/-- R165, R173, R174, R176: the commands that name the read which meets an error in RESTORE. -/
abbrev ReadsFailing (c : Instr) : Prop :=
  ∃ k b', c ∈ [.seed k (some b'), .seedOpDone k (some b'), .beginService k (some b'),
    .heldContainerNoticeEntry k (some b')]

theorem caused_of_fails (hs : s.ctl.dev = .restore) (hc : ∀ b, bad = some b → ReadsFailing c)
    (h : StaysOrFails bad s t) : t.ctl.dev = s.ctl.dev ∨ Caused c s t := by
  refine h.imp_right fun ⟨hb, ht⟩ => ?_
  obtain ⟨b, hb⟩ := Option.isSome_iff_exists.1 hb
  exact .inr (.inr (.inr ⟨.inl hs, ht.1, ht.2, .inr (hc b hb)⟩))

theorem caused_of_runBegin (hs : s.ctl.dev = .restore) (hu : u.ctl.dev = s.ctl.dev)
    (hc : c = .beginService k bad ∨ c = .heldContainerNoticeEntry k bad) (made : Nat) :
    (u.runBegin made bad).ctl.dev = s.ctl.dev ∨ Caused c s (u.runBegin made bad) := by
  obtain h | h := runBegin_dev u made bad
  · exact .inr (.inr (.inr (.inl ⟨hs, h, hc.imp (fun h => ⟨k, bad, h⟩) fun h => ⟨k, bad, h⟩⟩)))
  · refine caused_of_fails hs (fun b hb => ⟨k, b, ?_⟩) (h.imp_left (·.trans hu))
    rcases hc with hc | hc <;> simp [hc, hb]

theorem obeys_seed : Obeys (.seed k bad) s (execSeed k s bad) := by
  unfold execSeed takeSeed
  dsimp only
  repeat' split
  · exact obeys_same rfl
  · exact obeys_same rfl
  · next hd _ =>
    refine obeys_next (caused_of_fails (bad := bad) (not_not.1 hd) (fun b hb => ⟨k, b, by simp [hb]⟩) ?_)
    exact runSeed_staysOrFails (s.noteCorrected k) _ _ _
  · exact obeys_idle

theorem obeys_beginService : Obeys (.beginService k bad) s (execBeginService k bad s) := by
  unfold execBeginService takeBeginService
  split
  · split
    · exact obeys_same rfl
    · next hd => exact obeys_next (caused_of_runBegin (u := s.noteCorrected k) (not_not.1 hd) rfl (.inl rfl) 0)
  · exact obeys_idle

theorem obeys_seedOpDone : Obeys (.seedOpDone k bad) s (execSeedOpDone k s bad) := by
  unfold execSeedOpDone
  split
  · refine obeys_ite (fun hd => obeys_next ?_) (obeys_ite (fun _ => obeys_same rfl) obeys_idle)
    exact caused_of_fails hd.1 (fun b hb => ⟨k, b, by simp [hb]⟩) (seedOp_staysOrFails (s := s.noteCorrected k))
  · exact obeys_idle

/-! ### Requests -/

theorem dev_makeDurable (s : State) (c : Nat) : (s.makeDurable c).ctl.dev = s.ctl.dev := by
  unfold State.makeDurable
  dsimp only
  split <;> rfl

theorem dev_makeLost (s : State) (c : Nat) : (s.makeLost c).ctl.dev = s.ctl.dev := by
  unfold State.makeLost
  dsimp only
  split
  · exact (aside_freeLost _ c).dev
  · rfl

theorem dev_takeDurable (r : Request) (s : State) : (takeDurable r s).ctl.dev = s.ctl.dev := by
  unfold takeDurable
  dsimp only
  repeat' split
  · rfl
  · rfl
  · rfl
  all_goals exact (aside_checkMarks _ _).dev.trans (dev_makeDurable s _)

theorem dev_takeLost (r : Request) (s : State) : (takeLost r s).ctl.dev = s.ctl.dev := by
  unfold takeLost
  dsimp only
  repeat' split
  · rfl
  · rfl
  · rfl
  all_goals exact (aside_checkMarks _ _).dev.trans (dev_makeLost s _)

theorem dev_takeFlush (r : Request) (s : State) : (takeFlush r s).ctl.dev = s.ctl.dev := by
  unfold takeFlush
  dsimp only
  repeat' split
  all_goals rfl

theorem dev_takeSeal (r : Request) (s : State) : (takeSeal r s).ctl.dev = s.ctl.dev := by
  unfold takeSeal
  dsimp only
  repeat' split
  · rfl
  · rfl
  · exact (aside_checkMark _ _).dev

theorem dev_ackReport (s : State) (r : Request) (old : Report) : (s.ackReport r old).ctl.dev = s.ctl.dev := by
  unfold State.ackReport
  dsimp only
  split
  · exact (aside_enterReport _ _ _).dev
  · exact (aside_tryClose _ _).dev

theorem dev_takeAckReport (r : Request) (s : State) : (takeAckReport r s).ctl.dev = s.ctl.dev := by
  unfold takeAckReport
  repeat' split
  · rfl
  · rfl
  · rfl
  · exact dev_ackReport s r _

theorem dev_takeAbort (r : Request) (s : State) : (takeAbort r s).ctl.dev = s.ctl.dev := by
  unfold takeAbort
  dsimp only
  split
  · rfl
  · exact (aside_afterAbort _ _).dev

theorem dev_takeRelease (r : Request) (s : State) : (takeRelease r s).ctl.dev = s.ctl.dev := by
  unfold takeRelease
  dsimp only
  repeat' split
  · rfl
  · rfl
  · rfl
  · rfl
  · exact (aside_advanceReleases _ _).dev

theorem dev_takeResetBaseline (r : Request) (s : State) : (takeResetBaseline r s).ctl.dev = s.ctl.dev := by
  unfold takeResetBaseline
  dsimp only
  repeat' split
  · rfl
  · rfl
  · exact (aside_foldl (f := fun s n => s.setBranch n (s.branch n).resetBaseline) s
      (fun _ _ => ⟨rfl, rfl, rfl, id⟩) (baselineList r.payload)).dev

/-- R165: no request but SEED and BEGIN SERVICE has a part in the table. -/
theorem row_dev {kind : ReqKind} {take : Request → State → State} (hc : rowTaking c = some (kind, take))
    (hk : kind ≠ .seed ∧ kind ≠ .beginService) (r : Request) (s : State) : (take r s).ctl.dev = s.ctl.dev := by
  cases c <;> cases hc
  case seed => exact absurd rfl hk.1
  case beginService => exact absurd rfl hk.2
  case ackReport => exact dev_takeAckReport r s
  case abort => exact dev_takeAbort r (s.noteCorrected _)
  case durable => exact dev_takeDurable r (s.noteCorrected _)
  case lost => exact dev_takeLost r (s.noteCorrected _)
  case flush => exact dev_takeFlush r (s.noteCorrected _)
  case release => exact dev_takeRelease r s
  case resetBaseline => exact dev_takeResetBaseline r s
  case status => rfl
  -- The other takings end in a reply, a notice or a write, none of which writes the device state.
  case reset | setSetting | saveSettings | declare | openStream | data | mark | readReport | retime | setWeight
      | setPacing | snapshot | close | free | queryContainer | clearHold | queryBranch =>
    simp only [takeReset, takeSetSetting, takeSaveSettings, takeDeclare, takeOpen, takeData, takeMark, takeReadReport,
      takeRetime, takeSetWeight, takeSetPacing, takeSnapshot, takeClose, takeFree, takeQueryContainer, takeClearHold,
      takeQueryBranch]
    repeat' split
    all_goals rfl
  -- SEAL is left: its name is a keyword, which a case cannot give.
  exact dev_takeSeal r (s.noteCorrected _)

theorem row_obeys {kind : ReqKind} {take : Request → State → State} (hc : rowTaking c = some (kind, take)) :
    Obeys c s (exec c s) := by
  by_cases hk : kind ≠ .seed ∧ kind ≠ .beginService
  · rw [exec_requestRow hc]
    split
    · exact obeys_same (row_dev hc hk _ s)
    · exact obeys_idle
  · cases c <;> cases hc <;> simp only [ne_eq, reduceCtorEq, not_false_eq_true, and_self, not_true_eq_false,
      false_and, and_false] at hk
    · exact obeys_seed
    · exact obeys_beginService

/-! ### Commands that take no request -/

theorem dev_resumeRequest (s : State) : s.resumeRequest.ctl.dev = s.ctl.dev := by
  unfold State.resumeRequest
  split
  · split
    · exact dev_takeDurable _ s
    · exact dev_takeLost _ s
    · exact dev_takeFlush _ s
    · rfl
  · rfl

theorem dev_resumePlace (s : State) (h : PlaceHold) : (s.resumePlace h).ctl.dev = s.ctl.dev :=
  match h with
  | .apply => (aside_applyHead s.unholdPlace).dev
  | .release => (aside_releaseOp s.unholdPlace).dev
  | .sweep => (aside_sweepOp s.unholdPlace).dev
  | .request => dev_resumeRequest s.unholdPlace
  | .seal n => (aside_checkMark s.unholdPlace n).dev
  | .starved => (aside_resumeStarved (s := s.unholdPlace)).dev

theorem obeys_heldContainerNoticeEntry :
    Obeys (.heldContainerNoticeEntry k bad) s (execHeldContainerNoticeEntry k bad s) := by
  unfold execHeldContainerNoticeEntry
  refine obeys_ite (fun _ => obeys_idle) ?_
  split
  · next made hd _ => exact obeys_next (caused_of_runBegin (u := s.noteCorrected k) hd rfl (.inr rfl) made)
  · exact obeys_same ((aside_checkMarks _ _).dev.trans (dev_resumePlace (s.noteCorrected k) _))
  · exact obeys_idle

theorem obeys_indexMemoryError : Obeys .indexMemoryError s (execIndexMemoryError s) := by
  have hfault : s.ctl.dev = .restore ∨ s.ctl.dev = .service → Obeys .indexMemoryError s (.next s.enterFault) :=
    fun hd => obeys_next (.inr (.inr (.inr (.inr
      ⟨hd, (enterFault_fault s).1, (enterFault_fault s).2, .inl rfl⟩))))
  unfold execIndexMemoryError
  refine obeys_ite (fun _ => obeys_idle) ?_
  split
  · next hd => exact hfault (.inl hd)
  · next hd => exact hfault (.inr hd)
  · exact obeys_same rfl
  · exact obeys_idle

theorem obeys_indexMemoryClearDone : Obeys .indexMemoryClearDone s (execIndexMemoryClearDone s) :=
  obeys_ite (fun hd => obeys_makeReady hd.1 rfl (by simp)) obeys_idle

theorem obeys_heldReadyEntry : Obeys .heldReadyEntry s (execHeldReadyEntry s) :=
  obeys_ite (fun hd => obeys_makeReady hd.1 rfl (by simp)) obeys_idle

theorem obeys_frameReceived (bytes : List Byte) : Obeys (.frameReceived bytes) s (execFrameReceived bytes s) := by
  unfold execFrameReceived
  refine obeys_ite (fun _ => obeys_idle) ?_
  split
  · exact obeys_same (aside_linkFault _).dev
  · unfold State.receiveRecord State.receiveRequest
    dsimp only
    repeat' split
    · exact obeys_same rfl
    · exact obeys_same (aside_linkFault _).dev
    · exact obeys_same (aside_linkFault _).dev
    · exact obeys_same rfl
    · exact obeys_same rfl
    · exact obeys_same rfl

theorem obeys_finishSending (hu : u.ctl.dev = s.ctl.dev) (src : TxSource) :
    Obeys (.frameTransmitted k) s (.next (u.finishSending src)) := by
  cases src with
  | reply =>
    simp only [State.finishSending]
    split
    · split
      · exact obeys_resetTo _ _ (.inr ⟨k, rfl⟩)
      · exact obeys_same hu
    · exact obeys_same hu
  | notice cls => exact obeys_same hu
  | batch n => exact obeys_same ((aside_batchSent (txFreed u) n).dev.trans hu)

theorem obeys_frameTransmitted : Obeys (.frameTransmitted k) s (execFrameTransmitted s k) := by
  unfold execFrameTransmitted
  split
  · exact obeys_ite (fun _ => obeys_idle) (obeys_finishSending (u := s.noteCorrected k) rfl _)
  · exact obeys_idle

theorem obeys_heldDataRefusedEntry : Obeys .heldDataRefusedEntry s (execHeldDataRefusedEntry s) := by
  unfold execHeldDataRefusedEntry
  split
  · exact obeys_ite (fun _ => obeys_same rfl) obeys_idle
  · exact obeys_idle

theorem obeys_heldAckReport : Obeys .heldAckReport s (execHeldAckReport s) := by
  unfold execHeldAckReport
  split
  · exact obeys_ite (fun _ => obeys_same (dev_takeAckReport _ _)) obeys_idle
  · exact obeys_idle

/-! ### Every command -/

/-- R165: no command changes the device state but for a cause of the table. -/
theorem exec_obeys (c : Instr) (s : State) : Obeys c s (exec c s) := by
  cases hrow : rowTaking c with
  | some row => exact row_obeys hrow
  | none =>
    cases c <;> simp only [rowTaking, reduceCtorEq] at hrow
    case powerOnReset => exact obeys_resetTo _ _ (.inl (by simp))
    case resetPinAssert => exact obeys_resetTo _ _ (.inl (by simp))
    case resetPinRelease => exact obeys_ite (fun _ => obeys_resetTo _ _ (.inl (by simp))) obeys_idle
    case indexMemoryClearDone => exact obeys_indexMemoryClearDone
    case frameReceived bytes => exact obeys_frameReceived bytes
    case credit m => exact obeys_of_rests (rests_credit m)
    case settingsProgramDone => exact obeys_of_rests rests_settingsProgramDone
    case seedOpDone k bad => exact obeys_seedOpDone
    case transmitStart => exact obeys_of_rests rests_transmitStart
    case frameTransmitted k => exact obeys_frameTransmitted
    case tick k => exact obeys_of_rests rests_tick
    case pacingMatch n k => exact obeys_of_rests rests_pacingMatch
    case markTimerLimit n k => exact obeys_of_rests rests_markTimerLimit
    case grant => exact obeys_of_rests rests_grant
    case laneCut l => exact obeys_of_rests (rests_laneCut l)
    case laneLookupJoin k => exact obeys_of_rests rests_laneLookupJoin
    case laneMarkMarker l k => exact obeys_of_rests (rests_laneMarkMarker l)
    case laneEndMarker l => exact obeys_of_rests (rests_laneEndMarker l)
    case laneEntryFinish l k => exact obeys_of_rests (rests_laneEntryFinish l)
    case lookupPortGrant => exact obeys_of_rests rests_lookupPortGrant
    case lookupReadDone i k => exact obeys_of_rests (rests_lookupReadDone i)
    case indexMemoryError => exact obeys_indexMemoryError
    case lookupApply k => exact obeys_of_rests rests_lookupApply
    case releasePortGrant => exact obeys_of_rests rests_releasePortGrant
    case releaseOpDone k => exact obeys_of_rests rests_releaseOpDone
    case sweepPortGrant => exact obeys_of_rests rests_sweepPortGrant
    case sweepOpDone k => exact obeys_of_rests rests_sweepOpDone
    case heldReadyEntry => exact obeys_heldReadyEntry
    case heldDataRefusedEntry => exact obeys_heldDataRefusedEntry
    case heldStreamClosedEntry n => exact obeys_of_rests rests_heldStreamClosedEntry
    case heldContainerNoticeEntry k bad => exact obeys_heldContainerNoticeEntry
    case heldReportEntry n => exact obeys_of_rests rests_heldReportEntry
    case heldAckReport => exact obeys_heldAckReport
    case heldSurgeEntry order => exact obeys_of_rests (rests_heldSurgeEntry order)
    case heldReleaseCompleteEntry => exact obeys_of_rests rests_heldReleaseCompleteEntry
    case heldSettingsSavedEntry => exact obeys_of_rests rests_heldSettingsSavedEntry
    case pendingFaultEntry => exact obeys_of_rests rests_pendingFaultEntry
    case pendingLinkFaultEntry => exact obeys_of_rests rests_pendingLinkFaultEntry

/-- Settles O8: a change that is there has its cause. -/
theorem deviceStateChanges : Obligations.DeviceStateChanges := fun c s t hx hne =>
  (exec_obeys c s t hx).resolve_left hne

end Sys2Proof.DeviceStates

/-! PROOFS. Start-up, RESTORE and the settings (chapter 10): the resets and the clearing, RESET, the requests that
only read, the settings and their store, DECLARE, SEED, BEGIN SERVICE, and the entry into FAULT. Each request row is
its taking (`exec_of_takesNow`); a block that makes a notice or holds it has one equation with the two outcomes. -/

namespace Sys2Proof.StartUp

open Machine BranchStreams

variable {s : State} {r : Request} {rest : List Request} {k b : Nat} {bad : Option Nat}

/-! ## SEED taken -/

theorem takeSeed_badState (hq : s.link.requests = r :: rest) (hd : s.ctl.dev ≠ .restore) :
    takeSeed r bad s = { s with link := s.replied r rest (.refused .badState) .none } := by
  simp only [takeSeed, if_pos hd, refuse_eq hq]

theorem takeSeed_range (hq : s.link.requests = r :: rest) (hd : s.ctl.dev = .restore)
    (hc : field r.payload 0 1 = 0 ∨ 32 < field r.payload 0 1) :
    takeSeed r bad s = { s with link := s.replied r rest (.refused .range) .none } := by
  have hc' : field r.payload 0 1 = 0 ∨ Config.seedMax < field r.payload 0 1 := hc
  simp only [takeSeed, ne_eq, hd, not_true_eq_false, if_false, if_pos hc', refuse_eq hq]

theorem takeSeed_runs (hd : s.ctl.dev = .restore) (h₁ : 1 ≤ field r.payload 0 1) (h₃₂ : field r.payload 0 1 ≤ 32) :
    takeSeed r bad s =
      s.runSeed bad ⟨[], 0, 0, 0, 0, 0⟩ (seedEntries (field r.payload 0 1) (r.payload.drop 1)) := by
  have hc : ¬ (field r.payload 0 1 = 0 ∨ Config.seedMax < field r.payload 0 1) := by
    simp only [Config.seedMax]; omega
  simp only [takeSeed, ne_eq, hd, not_true_eq_false, if_false, if_neg hc]

/-- Settles O23: the two refusals, and the run over the entries as `runSeed_goesOn` gives it. -/
theorem seedJudgesItsEntries : Obligations.SeedJudgesItsEntries := by
  intro k bad s r rest h s'
  have hx : exec (.seed k bad) s = .next (takeSeed r bad s') := exec_of_takesNow (c := .seed k bad) rfl h
  have hq : s'.link.requests = r :: rest := h.1
  rw [hx]
  refine ⟨fun hd => ?_, fun hd hc => ?_, fun hd h₁ h₃₂ => ?_⟩
  · rw [takeSeed_badState hq hd]; rfl
  · rw [takeSeed_range hq hd hc]; rfl
  · rw [takeSeed_runs (s := s') hd h₁ h₃₂]
    exact runSeed_goesOn s' hq bad _ _

/-! ## The operation of a seed entry -/

/-- R55, R64: no entry of that key stands in the bucket, nor one of its spilled entries in the spill table. -/
def Absent (s : State) (b : Nat) (fp : Fp) (length : Nat) : Prop :=
  (∀ x ∈ (s.bucket b).entries, ¬ (x.fp = fp ∧ x.length = length)) ∧
    ((s.bucket b).spill = 0 ∨ s.spillAt fp length = none)

theorem hasKey_iff (x : IndexEntry) (fp : Fp) (length : Nat) :
    x.hasKey fp length = true ↔ x.fp = fp ∧ x.length = length := by
  simp [IndexEntry.hasKey]

theorem search_count (fp : Fp) (length : Nat) : (s.search b fp length).count = (s.bucket b).entries.length := by
  unfold State.search
  dsimp only
  repeat' split
  all_goals rfl

/-- R55, R64: the search finds nothing exactly where the key is absent. -/
theorem search_found_eq_none (fp : Fp) (length : Nat) :
    (s.search b fp length).found = none ↔ Absent s b fp length := by
  unfold State.search Absent
  dsimp only
  split
  next x hx =>
    have hk : x.hasKey fp length = true := List.find?_some (p := fun y : IndexEntry => y.hasKey fp length) hx
    exact iff_of_false (Option.some_ne_none _) fun ⟨hno, _⟩ =>
      hno x (List.mem_of_find?_eq_some hx) ((hasKey_iff ..).1 hk)
  next hx =>
    have hno : ∀ x ∈ (s.bucket b).entries, ¬ (x.fp = fp ∧ x.length = length) := fun x hm hk =>
      List.find?_eq_none.1 hx x hm ((hasKey_iff ..).2 hk)
    split
    next hs => simpa [Nat.pos_iff_ne_zero.1 hs] using fun _ => hno
    next hs => simpa [Nat.eq_zero_of_not_pos hs] using hno

/-- R173: the state at the end of a seed entry's operation: the port and the bucket are given up. -/
def opEnded (s : State) (b : Nat) : State := { s with index := { s.index with other := none } }.leaveFlight b

section operation

variable {w : SeedWork} {e : SeedEntry} {later : List SeedEntry}

theorem exec_seedOpDone (hd : s.ctl.dev = .restore) (hp : s.ctl.pinHeld = false)
    (ho : s.index.other = some (.seed b)) : exec (.seedOpDone k bad) s = .next ((s.noteCorrected k).seedOp bad) := by
  simp only [exec, execSeedOpDone, ho, hd, hp, and_self, if_true]

theorem seedOp_duplicate (hw : s.ctl.seedWork = some w) (he : w.rest = e :: later)
    (ho : s.index.other = some (.seed b)) (ha : ¬ Absent s b e.fp e.length) :
    s.seedOp bad = (opEnded s b).runSeed bad { w with rest := [], duplicate := w.duplicate + 1 } later := by
  have hf : (s.search b e.fp e.length).found.isSome = true := by
    rwa [Option.isSome_iff_ne_none, ne_eq, search_found_eq_none]
  simp only [State.seedOp, hw, ho, he, hf, if_true, opEnded]

/-- R56: of an absent key the entry is inserted where there is room, and otherwise counts ROOM. -/
theorem seedOp_absent (hw : s.ctl.seedWork = some w) (he : w.rest = e :: later)
    (ho : s.index.other = some (.seed b)) (ha : Absent s b e.fp e.length) :
    s.seedOp bad =
      if s.indexRoom (s.bucket b).entries.length then
        ((opEnded s b).takeSeedEntry e (s.bucket b).entries.length).runSeed bad
          { w with rest := [], taken := w.taken + 1 } later
      else (opEnded s b).runSeed bad { w with rest := [], room := w.room + 1 } later := by
  have hf : (s.search b e.fp e.length).found.isSome = false := by
    rwa [Option.isSome_eq_false_iff, Option.isNone_iff_eq_none, search_found_eq_none]
  simp only [State.seedOp, hw, ho, he, hf, Bool.false_eq_true, if_false, search_count, opEnded]

theorem indexRoom_iff {n : Nat} : s.indexRoom n = true ↔ n < 8 ∨ s.index.spillCount < 65536 := by
  simp [State.indexRoom, Config.bucketMax, Config.spillMax]

theorem seedOp_noRoom (hw : s.ctl.seedWork = some w) (he : w.rest = e :: later)
    (ho : s.index.other = some (.seed b)) (ha : Absent s b e.fp e.length) (hn : 8 ≤ (s.bucket b).entries.length)
    (hs : 65536 ≤ s.index.spillCount) :
    s.seedOp bad = (opEnded s b).runSeed bad { w with rest := [], room := w.room + 1 } later := by
  have hr : ¬ s.indexRoom (s.bucket b).entries.length = true := by rw [indexRoom_iff]; omega
  rw [seedOp_absent hw he ho ha, if_neg hr]

/-- R79: the entry taken in its container's accounting. -/
def accounted (s : State) (e : SeedEntry) : State :=
  s.setContainer e.container
    { s.container e.container with
      entries := (s.container e.container).entries + 1, live := (s.container e.container).live + e.length }

/-- R56: where its bucket has room the entry joins it. -/
theorem seedOp_toBucket (hw : s.ctl.seedWork = some w) (he : w.rest = e :: later)
    (ho : s.index.other = some (.seed b)) (ha : Absent s b e.fp e.length) (hn : (s.bucket b).entries.length < 8) :
    s.seedOp bad =
      (accounted ((opEnded s b).insertBucket ⟨e.fp, e.length, e.container, e.offset, e.refs⟩) e).runSeed bad
        { w with rest := [], taken := w.taken + 1 } later := by
  rw [seedOp_absent hw he ho ha, if_pos (indexRoom_iff.2 (.inl hn)), State.takeSeedEntry, State.insertEntry, if_pos hn]
  rfl

/-- R56: where its bucket is full the entry goes to the spill table. -/
theorem seedOp_toSpill (hw : s.ctl.seedWork = some w) (he : w.rest = e :: later)
    (ho : s.index.other = some (.seed b)) (ha : Absent s b e.fp e.length) (hn : 8 ≤ (s.bucket b).entries.length)
    (hs : s.index.spillCount < 65536) :
    s.seedOp bad =
      (accounted ((opEnded s b).insertSpill ⟨e.fp, e.length, e.container, e.offset, e.refs⟩) e).runSeed bad
        { w with rest := [], taken := w.taken + 1 } later := by
  rw [seedOp_absent hw he ho ha, if_pos (indexRoom_iff.2 (.inr hs)), State.takeSeedEntry, State.insertEntry,
    if_neg (Nat.not_lt.2 hn)]
  rfl

end operation

/-- Settles O24: by whether the key is there, and then by the place that has room; each time the SEED goes on with the
entries after it (`runSeed_goesOn`). -/
theorem seedOperationInsertsOrCounts : Obligations.SeedOperationInsertsOrCounts := by
  intro k bad s r rest w e later b hd hp hq hw he ho hb index s' c taken new absent
  subst hb
  rw [exec_seedOpDone (k := k) (bad := bad) hd hp ho]
  refine ⟨fun ha => ?_, fun ha hn hs => ?_, fun ha hn => ?_, fun ha hn hs => ?_⟩
  · rw [seedOp_duplicate (s := s.noteCorrected k) hw he ho ha]
    exact runSeed_goesOn s' hq bad { w with rest := [], duplicate := w.duplicate + 1 } later
  · rw [seedOp_noRoom (s := s.noteCorrected k) hw he ho ha hn hs]
    exact runSeed_goesOn s' hq bad { w with rest := [], room := w.room + 1 } later
  · rw [seedOp_toBucket (s := s.noteCorrected k) hw he ho ha hn]
    exact runSeed_goesOn _ (by exact hq) bad { w with rest := [], taken := w.taken + 1 } later
  · rw [seedOp_toSpill (s := s.noteCorrected k) hw he ho ha hn hs]
    exact runSeed_goesOn _ (by exact hq) bad { w with rest := [], taken := w.taken + 1 } later

/-! ## BEGIN SERVICE -/

theorem takeBeginService_badState (hq : s.link.requests = r :: rest) (hd : s.ctl.dev ≠ .restore) :
    takeBeginService r bad s = { s with link := s.replied r rest (.refused .badState) .none } := by
  simp only [takeBeginService, if_pos hd, refuse_eq hq]

theorem takeBeginService_runs (hd : s.ctl.dev = .restore) : takeBeginService r bad s = s.runBegin 0 bad := by
  simp only [takeBeginService, ne_eq, hd, not_true_eq_false, if_false]

/-- R174: in RESTORE the freed room goes to the BEGIN SERVICE that is held. -/
theorem exec_heldContainerNoticeEntry_resumes {made : Nat} (hd : s.ctl.dev = .restore) (hp : s.ctl.pinHeld = false)
    (hw : s.ctl.beginWork = some made) (hn : s.link.notices.length < 128) :
    exec (.heldContainerNoticeEntry k bad) s = .next ((s.noteCorrected k).runBegin made bad) := by
  have hr : s.hasRoom = true := by simp [hasRoom_eq, hn]
  simp only [exec, execHeldContainerNoticeEntry, hp, hr, hd, hw, Bool.false_eq_true, Bool.true_eq_false, or_self,
    if_false]

/-- Settles O25: the taking and the resumption are both the run of `runBegin_goesOn`. -/
theorem beginServiceEntersService : Obligations.BeginServiceEntersService := by
  refine ⟨fun k bad s r rest h hwf => ?_, fun k bad s r rest made hd hp hw hq hn hwf => ?_⟩
  · have hq : (s.noteCorrected k).link.requests = r :: rest := h.1
    rw [exec_of_takesNow (c := .beginService k bad) rfl h]
    refine ⟨fun hd => ?_, fun hd => ?_⟩
    · rw [takeBeginService_badState (s := s.noteCorrected k) hq hd]; rfl
    · rw [takeBeginService_runs (s := s.noteCorrected k) hd]
      exact runBegin_goesOn _ hq 0 bad hwf
  · rw [exec_heldContainerNoticeEntry_resumes hd hp hw hn]
    exact runBegin_goesOn (s.noteCorrected k) hq made bad hwf

/-! ## The resets and the clearing -/

/-- R168: READY enters and the device is in RESTORE, or READY is held. -/
theorem makeReady_eq :
    s.makeReady = { s with
      ctl :=
        if s.link.notices.length < 128 then { s.ctl with dev := .restore, readyHeld := false }
        else { s.ctl with readyHeld := true }
      link := if s.link.notices.length < 128 then s.link.noticed s.ctl.readyNotice else s.link } := by
  by_cases hn : s.link.notices.length < 128
  · simp only [State.makeReady, hasRoom_eq, hn, decide_true, if_true]
    rfl
  · simp only [State.makeReady, hasRoom_eq, hn, decide_false, Bool.false_eq_true, if_false]

/-- Settles O11: a reset is `resetTo_eq`; the clearing and the held READY end in `makeReady_eq`. -/
theorem resetsAndClearingBringUpTheEngine : Obligations.ResetsAndClearingBringUpTheEngine := by
  refine ⟨fun s => ⟨?_, ?_, fun hp => ?_, fun hp => ?_⟩, fun s hp => ⟨fun hd hc => ?_, fun hd hr hn => ?_⟩⟩
  · simp only [exec, execPowerOnReset, resetTo_eq]
  · simp only [exec, execResetPinAssert, resetTo_eq]
  · simp only [exec, execResetPinRelease, hp, if_true, resetTo_eq]
  · simp only [exec, execResetPinRelease, hp, Bool.false_eq_true, if_false]
  · simp only [exec, execIndexMemoryClearDone, hd, hc, hp, and_self, if_true, makeReady_eq]
    rfl
  · have hroom : s.hasRoom = true := by simp [hasRoom_eq, hn]
    simp only [exec, execHeldReadyEntry, hd, hr, hp, hroom, and_self, if_true, makeReady_eq, hn]
    rfl

/-! ## RESET -/

/-- R164: the requests of the controller. -/
def controllerKinds : List ReqKind :=
  [.status, .reset, .setSetting, .saveSettings, .declare, .seed, .beginService]

/-- R167: after a RESET taken, the controller takes no request. -/
theorem headRequest_of_resetTaken (h : s.ctl.resetTaken = true) {kind : ReqKind} (hk : kind ∈ controllerKinds) :
    s.headRequest kind = none := by
  have ho : s.ownerFree kind = false := by
    simp only [controllerKinds, List.mem_cons, List.not_mem_nil, or_false] at hk
    rcases hk with rfl | rfl | rfl | rfl | rfl | rfl | rfl <;> simp [State.ownerFree, h]
  unfold State.headRequest
  split <;> simp [ho]

/-- The controller's rows take the controller's requests. -/
theorem rowTaking_controller {c : Instr}
    (hc : c ∈ [.status, .reset, .setSetting, .saveSettings, .declare k, .seed k bad, .beginService k bad]) :
    ∃ kind ∈ controllerKinds, ∃ take, rowTaking c = some (kind, take) := by
  simp only [List.mem_cons, List.not_mem_nil, or_false] at hc
  rcases hc with rfl | rfl | rfl | rfl | rfl | rfl | rfl <;> exact ⟨_, by simp [controllerKinds], _, rfl⟩

theorem takeReset_starting (hq : s.link.requests = r :: rest) (hd : s.ctl.dev = .starting) :
    takeReset r s = { s with link := s.replied r rest (.refused .badState) .none } := by
  simp only [takeReset, if_pos hd, refuse_eq hq]

theorem takeReset_taken (hq : s.link.requests = r :: rest) (hd : s.ctl.dev ≠ .starting) :
    takeReset r s =
      { s with ctl := { s.ctl with resetTaken := true }, link := s.replied r rest .done .none } := by
  rw [takeReset, if_neg hd, answer_eq (by exact hq)]
  rfl

/-- R167: once the reply of a RESET has been transmitted, the reset takes effect. -/
theorem finishSending_resetReply {y : Reply} {ys : List Reply} (hq : s.link.replies = y :: ys)
    (hy : y.isReset = true) : s.finishSending .reply = s.afterReset .command s.ctl.pinHeld := by
  simp only [State.finishSending, hq, hy, if_true, resetTo_eq]
  rfl

/-- Settles O12: RESET's two takings, the controller's standstill, and the sending of its reply. -/
theorem resetRequestTakesEffectWhenAnswered : Obligations.ResetRequestTakesEffectWhenAnswered := by
  refine ⟨fun s r rest h => ?_, fun c k bad s ht hc => ?_, fun k s t y ys ht hs hq hk hst hp => ?_⟩
  · rw [exec_of_takesNow (c := .reset) rfl h]
    exact ⟨fun hd => by rw [takeReset_starting h.1 hd], fun hd => by rw [takeReset_taken h.1 hd]⟩
  · obtain ⟨kind, hk, take, hrow⟩ := rowTaking_controller hc
    simp only [exec_requestRow hrow, headRequest_of_resetTaken ht hk]
  · have hy : y.isReset = true := by simp [Reply.isReset, hk, hst, ReqKind.code]
    rw [RecordLink.exec_frameTransmitted ht hp, hs,
      finishSending_resetReply (s := s.noteCorrected k) hq hy, State.noteCorrected_ctl, hp]
    rfl

/-! ## The requests that only read -/

theorem takeQueryContainer_answers (hq : s.link.requests = r :: rest) (hd : s.ctl.dev = .service) :
    takeQueryContainer r s = { s with
      link := s.replied r rest .done (.queryContainer (s.containerFigures (field r.payload 0 2))) } := by
  rw [takeQueryContainer, if_neg (not_not.2 hd), answer_eq hq]

theorem takeQueryContainer_badState (hq : s.link.requests = r :: rest) (hd : s.ctl.dev ≠ .service) :
    takeQueryContainer r s = { s with link := s.replied r rest (.refused .badState) .none } := by
  rw [takeQueryContainer, if_pos hd, refuse_eq hq]

/-- Settles O20, request by request. -/
theorem readingRequestsOnlyReply : Obligations.ReadingRequestsOnlyReply := by
  intro s r rest
  refine ⟨fun h => ?_, fun sp h ha hsp => ?_, fun h ha => ⟨fun hr => ?_, fun rep age hr => ?_⟩, fun k h hd => ?_,
    fun h hd => ?_, fun hd => ⟨fun k h => ?_, fun h => ?_⟩⟩
  · rw [exec_of_takesNow (c := .status) rfl h, answer_eq h.1]
    rfl
  · rw [exec_of_takesNow (c := .snapshot) rfl h, takeSnapshot, streamCheck_eq_none ha]
    simp only [answer_eq h.1, State.snapshotOf, hsp, Option.getD_some]
  · rw [exec_of_takesNow (c := .readReport) rfl h, takeReadReport, streamCheck_eq_none ha]
    simp only [hr, refuse_eq h.1]
  · rw [exec_of_takesNow (c := .readReport) rfl h, takeReadReport, streamCheck_eq_none ha]
    simp only [hr, answer_eq h.1]
  · have hq : (s.noteCorrected k).link.requests = r :: rest := h.1
    rw [exec_of_takesNow (c := .queryContainer k) rfl h, takeQueryContainer_answers (s := s.noteCorrected k) hq hd]
    rfl
  · rw [exec_of_takesNow (c := .queryBranch) rfl h, takeQueryBranch, if_neg (not_not.2 hd), answer_eq h.1]
  · have hq : (s.noteCorrected k).link.requests = r :: rest := h.1
    rw [exec_of_takesNow (c := .queryContainer k) rfl h, takeQueryContainer_badState (s := s.noteCorrected k) hq hd]
    rfl
  · rw [exec_of_takesNow (c := .queryBranch) rfl h, takeQueryBranch, if_pos hd, refuse_eq h.1]

/-! ## The settings and their store -/

theorem takesSettings_eq_false {d : DevState} (h : d = .starting ∨ d = .fault) : d.takesSettings = false := by
  rcases h with rfl | rfl <;> rfl

theorem takesSettings_eq_true {d : DevState} (h : d = .restore ∨ d = .service) : d.takesSettings = true := by
  rcases h with rfl | rfl <;> rfl

/-- R169: the table's rows are the model's ranges. -/
theorem settingRange_of_mem {n lo hi : Nat} (h : (n, lo, hi) ∈ settingTable) : settingRange n = some (lo, hi) := by
  have hrows : ∀ p ∈ settingTable, settingRange p.1 = some p.2 := by decide
  exact hrows _ h

theorem settingTable_le {n lo hi : Nat} (h : (n, lo, hi) ∈ settingTable) : lo ≤ hi := by
  have hrows : ∀ p ∈ settingTable, p.2.1 ≤ p.2.2 := by decide
  exact hrows _ h

theorem settingTable_number {n lo hi : Nat} (h : (n, lo, hi) ∈ settingTable) : 1 ≤ n ∧ n ≤ 15 := by
  have hrows : ∀ p ∈ settingTable, 1 ≤ p.1 ∧ p.1 ≤ 15 := by decide
  exact hrows _ h

theorem settingRange_eq_none {n : Nat} (h : n = 0 ∨ 15 < n) : settingRange n = none := by
  unfold settingRange
  split <;> simp at h ⊢

theorem values_injective {w w' : Settings} (h : w.values = w'.values) : w = w' := by
  cases w; cases w'
  simp only [Settings.values, List.cons.injEq, and_true] at h
  simp [h]

theorem values_set {w : Settings} {n v : Nat} (h₁ : 1 ≤ n) (h₁₅ : n ≤ 15) :
    (w.set n v).values = w.values.set (n - 1) v := by
  interval_cases n <;> rfl

/-- R169: the settings that `With` describes are those the model sets. -/
theorem eq_set_of_with {w w' : Settings} {n v : Nat} (h₁ : 1 ≤ n) (h₁₅ : n ≤ 15) (h : w.With n v w') :
    w' = w.set n v :=
  values_injective (h.trans (values_set h₁ h₁₅).symm)

theorem takeSetSetting_badState (hq : s.link.requests = r :: rest) (hd : s.ctl.dev.takesSettings = false) :
    takeSetSetting r s = { s with link := s.replied r rest (.refused .badState) .none } := by
  simp only [takeSetSetting, if_pos hd, refuse_eq hq]

theorem takeSetSetting_busy (hq : s.link.requests = r :: rest) (hd : s.ctl.dev.takesSettings = true)
    (hs : s.ctl.storeState = .saving) :
    takeSetSetting r s = { s with link := s.replied r rest (.refused .settingsBusy) .none } := by
  simp only [takeSetSetting, hd, Bool.true_eq_false, if_false, if_pos hs, refuse_eq hq]

theorem takeSetSetting_range (hq : s.link.requests = r :: rest) (hd : s.ctl.dev.takesSettings = true)
    (hs : s.ctl.storeState ≠ .saving) (hn : settingRange (field r.payload 0 1) = none) :
    takeSetSetting r s = { s with link := s.replied r rest (.refused .range) .none } := by
  simp only [takeSetSetting, hd, Bool.true_eq_false, if_false, if_neg hs, hn, refuse_eq hq]

theorem takeSetSetting_sets (hq : s.link.requests = r :: rest) (hd : s.ctl.dev.takesSettings = true)
    (hs : s.ctl.storeState ≠ .saving) {lo hi x : Nat} (hn : settingRange (field r.payload 0 1) = some (lo, hi))
    (hx : clampTo lo hi (field r.payload 1 4) = x) :
    takeSetSetting r s = { s with
      ctl := { s.ctl with settings := s.ctl.settings.set (field r.payload 0 1) x }
      link := s.replied r rest (if x = field r.payload 1 4 then .done else .clamped)
        (.setSetting (field r.payload 0 1) x) } := by
  simp only [takeSetSetting, hd, Bool.true_eq_false, if_false, if_neg hs, hn, hx]
  rw [answer_eq (by exact hq)]
  rfl

theorem takeSaveSettings_badState (hq : s.link.requests = r :: rest) (hd : s.ctl.dev.takesSettings = false) :
    takeSaveSettings r s = { s with link := s.replied r rest (.refused .badState) .none } := by
  simp only [takeSaveSettings, if_pos hd, refuse_eq hq]

theorem takeSaveSettings_busy (hq : s.link.requests = r :: rest) (hd : s.ctl.dev.takesSettings = true)
    (hs : s.ctl.storeState = .saving) :
    takeSaveSettings r s = { s with link := s.replied r rest (.refused .settingsBusy) .none } := by
  simp only [takeSaveSettings, hd, Bool.true_eq_false, if_false, if_pos hs, refuse_eq hq]

theorem takeSaveSettings_programs (hq : s.link.requests = r :: rest) (hd : s.ctl.dev.takesSettings = true)
    (hs : s.ctl.storeState ≠ .saving) :
    takeSaveSettings r s = { s with
      ctl := { s.ctl with storeState := .saving, programming := some s.ctl.settings }
      link := s.replied r rest .done .none } := by
  simp only [takeSaveSettings, hd, Bool.true_eq_false, if_false, if_neg hs]
  rw [answer_eq (by exact hq)]
  rfl

/-- R171: SETTINGS SAVED enters with the VALID store state, or is held. -/
theorem makeSaved_eq (w : Settings) :
    s.makeSaved w = { s with
      ctl :=
        if s.link.notices.length < 128 then { s.ctl with storeState := .valid, savedHeld := none }
        else { s.ctl with savedHeld := some w }
      link := if s.link.notices.length < 128 then s.link.noticed (.settingsSaved w) else s.link } := by
  by_cases hn : s.link.notices.length < 128
  · simp only [State.makeSaved, hasRoom_eq, hn, decide_true, if_true]
    rfl
  · simp only [State.makeSaved, hasRoom_eq, hn, decide_false, Bool.false_eq_true, if_false]

/-- R170: SET SETTING. -/
theorem exec_setSetting (h : s.TakesNow .setSetting r rest) : exec .setSetting s = .next (takeSetSetting r s) :=
  exec_of_takesNow (c := .setSetting) rfl h

/-- R171: SAVE SETTINGS. -/
theorem exec_saveSettings (h : s.TakesNow .saveSettings r rest) :
    exec .saveSettings s = .next (takeSaveSettings r s) :=
  exec_of_takesNow (c := .saveSettings) rfl h

/-- Settles O21: the refusals in order, the value brought into its range, and the two outcomes of `makeSaved_eq`. -/
theorem settingsAreSetAndSaved : Obligations.SettingsAreSetAndSaved := by
  refine ⟨fun s r rest h => ?_, fun s hp => ⟨fun r rest h hd => ?_, fun r rest h hd hs => ?_,
    fun r rest h hd hs => ?_, fun w hw => ?_, fun w hw hn => ?_⟩⟩
  · rw [exec_setSetting h]
    refine ⟨fun hd => ?_, fun hd hs => ?_, fun hd hs => ⟨fun hn => ?_, fun lo hi w ht hw => ?_⟩⟩
    · rw [takeSetSetting_badState h.1 (takesSettings_eq_false hd)]
    · rw [takeSetSetting_busy h.1 (takesSettings_eq_true hd) hs]
    · rw [takeSetSetting_range h.1 (takesSettings_eq_true hd) hs (settingRange_eq_none hn)]
    · have hle := settingTable_le ht
      obtain ⟨h₁, h₁₅⟩ := settingTable_number ht
      rw [← clampTo_eq _ _ _ hle] at hw ⊢
      rw [takeSetSetting_sets h.1 (takesSettings_eq_true hd) hs (settingRange_of_mem ht) rfl,
        eq_set_of_with h₁ h₁₅ hw]
      by_cases hv : lo ≤ field r.payload 1 4 ∧ field r.payload 1 4 ≤ hi
      · simp only [clampTo_of_mem _ _ _ hv.1 hv.2, hv, and_self, if_true]
      · simp only [clampTo_eq_self_iff hle, hv, if_false]
  · rw [exec_saveSettings h, takeSaveSettings_badState h.1 (takesSettings_eq_false hd)]
  · rw [exec_saveSettings h, takeSaveSettings_busy h.1 (takesSettings_eq_true hd) hs]
  · rw [exec_saveSettings h, takeSaveSettings_programs h.1 (takesSettings_eq_true hd) hs]
  · simp only [exec, execSettingsProgramDone, hw, hp, Bool.false_eq_true, if_false, makeSaved_eq]
  · have hr : s.hasRoom = true := by simp [hasRoom_eq, hn]
    simp only [exec, execHeldSettingsSavedEntry, hw, hp, hr, and_self, if_true, makeSaved_eq, hn]

/-! ## DECLARE -/

/-- R172: the ranges of a DECLARE's fields. -/
def InRange (p : List Byte) : Prop :=
  field p 11 1 = 3 ∧ field p 2 1 ≤ 7 ∧ 1048576 ∣ field p 3 4 ∧ 4194304 ≤ field p 3 4 ∧ field p 3 4 ≤ 67108864 ∧
    field p 7 4 ≤ field p 3 4

theorem declareOk_iff (p : List Byte) : declareOk p = true ↔ InRange p := by
  simp only [declareOk, InRange, Config.groupCount, Config.mib, Bool.and_eq_true, beq_iff_eq, decide_eq_true_eq,
    Nat.dvd_iff_mod_eq_zero, Nat.lt_succ_iff]
  tauto

theorem takeDeclare_badState (hq : s.link.requests = r :: rest) (hd : s.ctl.dev ≠ .restore) :
    takeDeclare r s = { s with link := s.replied r rest (.refused .badState) .none } := by
  simp only [takeDeclare, if_pos hd, refuse_eq hq]

theorem takeDeclare_range (hq : s.link.requests = r :: rest) (hd : s.ctl.dev = .restore) (hr : ¬ InRange r.payload) :
    takeDeclare r s = { s with link := s.replied r rest (.refused .range) .none } := by
  have hok : declareOk r.payload = false := by rwa [← Bool.not_eq_true, declareOk_iff]
  simp only [takeDeclare, ne_eq, hd, not_true_eq_false, if_false, hok, if_true, refuse_eq hq]

theorem takeDeclare_notFree (hq : s.link.requests = r :: rest) (hd : s.ctl.dev = .restore) (hr : InRange r.payload)
    (hc : (s.container (field r.payload 0 2)).state ≠ .free) :
    takeDeclare r s = { s with link := s.replied r rest (.refused .badState) .none } := by
  simp only [takeDeclare, ne_eq, hd, not_true_eq_false, if_false, (declareOk_iff _).2 hr, Bool.true_eq_false,
    if_pos hc, refuse_eq hq]

theorem takeDeclare_declares (hq : s.link.requests = r :: rest) (hd : s.ctl.dev = .restore) (hr : InRange r.payload)
    (hc : (s.container (field r.payload 0 2)).state = .free) :
    takeDeclare r s = { s with
      place := (s.setContainer (field r.payload 0 2)
        ⟨.durable, some (field r.payload 2 1), field r.payload 3 4, field r.payload 7 4, 0, 0⟩).place
      link := s.replied r rest .done .none } := by
  simp only [takeDeclare, ne_eq, hd, not_true_eq_false, if_false, (declareOk_iff _).2 hr, Bool.true_eq_false, hc]
  exact answer_eq (s := s.setContainer _ _) hq _ _

/-- Settles O22: the refusals in order, and the container declared. -/
theorem declareMakesAContainerDurable : Obligations.DeclareMakesAContainerDurable := by
  intro k s r rest h c cap inRange s'
  have hx : exec (.declare k) s = .next (takeDeclare r s') := exec_of_takesNow (c := .declare k) rfl h
  have hq : s'.link.requests = r :: rest := h.1
  rw [hx]
  refine ⟨fun hd => ?_, fun hd hr => ?_, fun hd hr hc => ?_, fun hd hr hc => ?_⟩
  · rw [takeDeclare_badState hq hd]; rfl
  · rw [takeDeclare_range hq hd hr]; rfl
  · rw [takeDeclare_notFree hq hd hr hc]; rfl
  · rw [takeDeclare_declares hq hd hr hc]; rfl

/-! ## The entry into FAULT -/

theorem enterFault_eq (hr : s.requestHeld = false) :
    s.enterFault = { s with
      ctl :=
        if s.link.notices.length < 128 then { s.ctl with dev := .fault, faultCause := true }
        else { s.ctl with dev := .fault, faultCause := true, faultPending := some s.ctl.dev }
      link := if s.link.notices.length < 128 then s.link.noticed (.fault s.ctl.dev) else s.link } := by
  by_cases hn : s.link.notices.length < 128
  · simp only [State.enterFault, State.refuseHeld, hr, hasRoom_eq, hn, decide_true, Bool.false_eq_true, if_true,
      if_false]
    rfl
  · simp only [State.enterFault, State.refuseHeld, hr, hasRoom_eq, hn, decide_false, Bool.false_eq_true, if_false]

theorem requestHeld_iff : s.requestHeld = true ↔
    s.marks.ackHeld = true ∨ s.place.held = some .request ∨ s.ctl.seedWork ≠ none ∨ s.ctl.beginWork ≠ none := by
  simp only [State.requestHeld, Bool.or_eq_true, beq_iff_eq, Option.isSome_iff_ne_none, or_assoc]

/-- R176: outside STARTING and FAULT an uncorrectable error is the entry into FAULT. -/
theorem exec_indexMemoryError (hp : s.ctl.pinHeld = false) (hd : s.ctl.dev = .restore ∨ s.ctl.dev = .service) :
    exec .indexMemoryError s = .next s.enterFault := by
  rcases hd with hd | hd <;> simp only [exec, execIndexMemoryError, hp, hd, Bool.false_eq_true, if_false]

/-- R77: in FAULT it is only counted. -/
theorem exec_indexMemoryError_fault (hp : s.ctl.pinHeld = false) (hd : s.ctl.dev = .fault) :
    exec .indexMemoryError s = .next (s.noteCorrected 1) := by
  simp only [exec, execIndexMemoryError, hp, hd, Bool.false_eq_true, if_false]

/-- Settles O26: by whether a request is held or worked, and in FAULT by its count and its pending notice. -/
theorem uncorrectableErrorEntersFault : Obligations.UncorrectableErrorEntersFault := by
  intro s hp
  refine ⟨fun hd ha hh hs hb => ?_, fun r rest hd hq hh => ?_, fun hd => ?_, fun d hd hn => ?_⟩
  · have hr : s.requestHeld = false := by
      simp only [← Bool.not_eq_true, requestHeld_iff, ha, hh, hs, hb, Bool.false_eq_true, ne_eq, not_true_eq_false,
        or_self, not_false_eq_true]
    rw [exec_indexMemoryError hp hd, enterFault_eq hr]
  · rw [exec_indexMemoryError hp hd, enterFault_of_held _ hq (requestHeld_iff.2 hh)]
  · exact exec_indexMemoryError_fault hp hd
  · have hr : s.hasRoom = true := by simp [hasRoom_eq, hn]
    simp only [exec, execPendingFaultEntry, hd, hp, hr, and_self, if_true]
    rfl

end Sys2Proof.StartUp

/-! PROOFS. The canonical form of the sparse tables (log entries 27 and 28), and what a step is (log entry 5). Each
operation of the model keeps the form because it writes the tables through their setters alone: Laws/Canonical.lean
shows that of the setters, and here it is shown once of each operation built on them (`InForm.checkMark`,
`InForm.applyHead`, …), so that the proof for a command reads as the command does. An operation that writes no table
keeps the form by definition: there the proof is the hypothesis. -/

namespace Sys2Proof.CanonicalTables

open Machine BranchStreams

variable {s t : State} {r : Request}

/-! ## The form, and the writes it rests on -/

/-- `State.Canonical` under a name that does not unfold while an operation is matched with its rule. -/
def InForm (s : State) : Prop := s.Canonical

theorem InForm.ite {c : Prop} [Decidable c] (ht : InForm t) (hs : InForm s) : InForm (if c then t else s) := by
  split
  · exact ht
  · exact hs

theorem InForm.foldl {f : State → Nat → State} (hf : ∀ u n, InForm u → InForm (f u n)) (ns : List Nat)
    (h : InForm s) : InForm (ns.foldl f s) := by
  induction ns generalizing s with
  | nil => exact h
  | cons n ns ih => exact ih (hf s n h)

/-! ### The tables -/

theorem InForm.setSlot (h : InForm s) (n : Nat) (v : Slot) : InForm (s.setSlot n v) := canonical_setSlot h n v

theorem InForm.setLane (h : InForm s) (l : Nat) (v : Lane) : InForm (s.setLane l v) := canonical_setLane h l v

theorem InForm.setBucket (h : InForm s) (b : Nat) (v : Bucket) : InForm (s.setBucket b v) := canonical_setBucket h b v

/-- R54: an entry of the spill table is written under its own key. -/
theorem InForm.setSpill (h : InForm s) (x : SpillEntry) : InForm (s.setSpill x.entry.fp x.entry.length (some x)) :=
  canonical_setSpill h _ _ _ fun _ hx => by cases hx; exact ⟨rfl, rfl⟩

theorem InForm.unsetSpill (h : InForm s) (fp : Fp) (len : Nat) : InForm (s.setSpill fp len none) :=
  canonical_setSpill h fp len none nofun

theorem InForm.setContainer (h : InForm s) (c : Nat) (v : Container) : InForm (s.setContainer c v) :=
  canonical_setContainer h c v

theorem InForm.setOpenPlace (h : InForm s) (g : Nat) (v : Option Nat) : InForm (s.setOpenPlace g v) :=
  canonical_setOpenPlace h g v

theorem InForm.setBranch (h : InForm s) (b : Nat) (v : Branch) : InForm (s.setBranch b v) := canonical_setBranch h b v

/-- A change of every slot that makes no slot FREE. -/
theorem InForm.mapSlots (h : InForm s) {f : Slot → Slot} (hf : ∀ v, f v = Slot.free → v = Slot.free) :
    InForm (s.mapSlots f) := canonical_mapSlots h f hf

theorem InForm.mapSpans (h : InForm s) (f : Span → Span) : InForm (s.mapSlots (fun sl => sl.mapSpans f)) :=
  canonical_mapSpans h f

theorem InForm.resetTo (h : InForm s) (cause : ResetCause) (pin : Bool) : InForm (s.resetTo cause pin) :=
  canonical_resetTo h cause pin

/-! ### What lies beside the tables -/

theorem InForm.withCtl (h : InForm s) (c : Ctl) : InForm { s with ctl := c } := h

theorem InForm.withLink (h : InForm s) (k : Link) : InForm { s with link := k } := h

theorem InForm.withMarks (h : InForm s) (m : MarkUnit) : InForm { s with marks := m } := h

theorem InForm.withSched (h : InForm s) (d : Sched) : InForm { s with sched := d } := h

theorem InForm.withWalker (h : InForm s) (w : Walker) : InForm { s with walker := w } := h

theorem InForm.withWaitOrder (h : InForm s) (ls : List Nat) : InForm { s with waitOrder := ls } := h

/-- The index unit with its two tables as they are. -/
theorem InForm.withIndex (h : InForm s) (x : Index) (hb : x.buckets = s.index.buckets := by rfl)
    (hx : x.spill = s.index.spill := by rfl) : InForm { s with index := x } :=
  canonical_of_eq h rfl rfl hb hx rfl rfl rfl

/-- The placement unit with its two tables as they are. -/
theorem InForm.withPlace (h : InForm s) (p : Place) (hc : p.containers = s.place.containers := by rfl)
    (ho : p.openPlaces = s.place.openPlaces := by rfl) : InForm { s with place := p } :=
  canonical_of_eq h rfl rfl rfl rfl hc ho rfl

/-- The branch monitor with its table as it is. -/
theorem InForm.withMonitor (h : InForm s) (m : Monitor) (hm : m.branches = s.monitor.branches := by rfl) :
    InForm { s with monitor := m } := canonical_of_eq h rfl rfl rfl rfl rfl rfl hm

theorem InForm.noteCorrected (h : InForm s) (k : Nat) : InForm (s.noteCorrected k) := h

theorem InForm.enter (h : InForm s) (n : Notice) : InForm (s.enter n) := h

theorem InForm.answer (h : InForm s) (r : Request) (x : Status) (y : Fields) : InForm (s.answer r x y) := h

theorem InForm.unholdPlace (h : InForm s) : InForm s.unholdPlace := h

theorem InForm.leaveFlight (h : InForm s) (b : Nat) : InForm (s.leaveFlight b) := h

/-! ## The branch monitor -/

theorem InForm.enterSurge (h : InForm s) (g : Surge) : InForm (s.enterSurge g) := (h.setBranch _ _).enter _

theorem InForm.monitorTake (h : InForm s) (x : HandOn) : InForm (s.monitorTake x) := by
  unfold State.monitorTake
  refine .ite (h.setBranch _ _) ?_
  dsimp only
  split
  · exact h.setBranch _ _
  · have hcounted := h.setBranch x.branch
      { (s.branch x.branch).addBytes x with
        cleanSamples := satAdd Config.counterMax ((s.branch x.branch).addBytes x).cleanSamples 1 }
    exact .ite (.ite (hcounted.enterSurge _) hcounted) (h.setBranch _ _)

theorem InForm.takeHandOns (h : InForm s) (xs : List HandOn) : InForm (s.takeHandOns xs) := by
  induction xs generalizing s with
  | nil => exact h
  | cons x xs ih => exact .ite h (ih (h.monitorTake x))

theorem InForm.handOn (h : InForm s) (x : HandOn) : InForm (s.handOn x) := .ite h (h.monitorTake x)

/-! ## Containers -/

theorem InForm.closeToFull (h : InForm s) (c : Nat) (cause : FullCause) : InForm (s.closeToFull c cause) :=
  (((h.setContainer c _).setOpenPlace _ none).withPlace _).enter _

theorem InForm.joinFreeList (h : InForm s) (c : Nat) : InForm (s.joinFreeList c) := (h.withPlace _).withIndex _

theorem InForm.freeContainer (h : InForm s) (c : Nat) : InForm (s.freeContainer c) :=
  (h.setContainer c .free).joinFreeList c

theorem InForm.restWalker (h : InForm s) : InForm s.restWalker := by
  unfold State.restWalker
  split
  · exact h
  · exact .ite h h

theorem InForm.freeLost (h : InForm s) (c : Nat) : InForm (s.freeLost c) :=
  (((h.freeContainer c).enter _).withPlace _).restWalker

theorem InForm.reclaim (h : InForm s) (c : Nat) : InForm (s.reclaim c) := ((h.setContainer c _).withPlace _).enter _

theorem InForm.account (h : InForm s) (c len : Nat) : InForm (s.account c len) := by
  have hcounted := h.setContainer c
    { s.container c with entries := (s.container c).entries - 1, live := (s.container c).live - len }
  unfold State.account
  refine .ite ?_ hcounted
  split
  · exact hcounted.reclaim c
  · exact hcounted.freeLost c
  · exact hcounted

/-! ## Marks and reports -/

theorem InForm.enterReport (h : InForm s) (n : Nat) (rep : Report) : InForm (s.enterReport n rep) := by
  have hentered := (h.setSlot n { s.slot n with reportSlot := some (rep, 0) }).enter
    (.reportReady rep.stream rep.branch rep.id rep.outcome)
  exact .ite (hentered.handOn _) hentered

theorem InForm.placeReport (h : InForm s) (n : Nat) (rep : Report) : InForm (s.placeReport n rep) :=
  .ite (h.setSlot n _) (.ite (h.enterReport n rep) (h.setSlot n _))

theorem InForm.closeSealed (h : InForm s) (n : Nat) (cs : List Nat) : InForm (s.closeSealed n cs) := by
  induction cs generalizing s with
  | nil => exact h
  | cons c cs ih => exact .ite (.ite h (.ite (ih (h.closeToFull c _)) (h.withPlace _))) (ih h)

theorem InForm.completeMark (h : InForm s) (n : Nat) : InForm (s.completeMark n) := by
  unfold State.completeMark
  dsimp only
  split
  · exact (h.setSlot n _).placeReport n _
  · exact h

theorem InForm.checkMark (h : InForm s) (n : Nat) : InForm (s.checkMark n) := by
  have hclosed : InForm (if (s.slot n).sealReady then
      s.closeSealed n (match (s.slot n).ended with | some sp => sp.deps | none => []) else s) :=
    .ite (h.closeSealed n _) h
  exact .ite (hclosed.completeMark n) hclosed

theorem InForm.checkMarks (h : InForm s) (ns : List Nat) : InForm (s.checkMarks ns) := by
  induction ns generalizing s with
  | nil => exact h
  | cons n ns ih => exact ih (h.checkMark n)

theorem InForm.abandonSeal (h : InForm s) (n : Nat) : InForm (s.abandonSeal n) := .ite (h.unholdPlace.checkMarks _) h

theorem InForm.violate (h : InForm s) (n : Nat) : InForm (s.violate n) := by
  unfold State.violate
  dsimp only
  split
  · exact ((h.setSlot n _).placeReport n _).abandonSeal n
  · exact h

theorem InForm.discardReports (h : InForm s) (n : Nat) : InForm (s.discardReports n) :=
  ((h.withMarks _).setSlot n _).abandonSeal n

/-! ## Batches and the end of a stream -/

theorem InForm.makeBatch (h : InForm s) (n : Nat) : InForm (s.makeBatch n) :=
  .ite ((h.setSlot n _).discardReports n) (h.setSlot n _)

theorem InForm.callBatch (h : InForm s) (n : Nat) : InForm (s.callBatch n) :=
  .ite h (.ite (h.makeBatch n) (h.setSlot n _))

/-- R110, R111: the last batch, if it is due. -/
theorem InForm.lastBatch (h : InForm s) (n : Nat) :
    InForm (if s.lastBatchDue n then s.callBatch n else s) := .ite (h.callBatch n) h

theorem InForm.laneLetGo (h : InForm s) (n l : Nat) : InForm (laneLetGo n s l) := by
  unfold BranchStreams.laneLetGo
  split
  · exact .ite ((h.setLane l _).withWaitOrder _) h
  · exact h

theorem InForm.freeSlot (h : InForm s) (n : Nat) : InForm (s.freeSlot n) := by
  rw [freeSlot_eq_foldl]
  exact InForm.foldl (fun _ l hu => hu.laneLetGo n l) _ ((h.setBranch _ _).setSlot n _)

theorem InForm.tryClose (h : InForm s) (n : Nat) : InForm (s.tryClose n) := .ite ((h.enter _).freeSlot n) h

/-! ## Index entries -/

theorem InForm.insertEntry (h : InForm s) (e : IndexEntry) (count : Nat) : InForm (s.insertEntry e count) :=
  .ite ((h.setBucket _ _).withIndex _) (((h.setBucket _ _).setSpill ⟨e, _⟩).withIndex _)

theorem InForm.dropEntry (h : InForm s) (e : IndexEntry) (inSpill : Bool) (b : Nat) :
    InForm (s.dropEntry e inSpill b) := by
  cases inSpill
  · exact (h.setBucket b _).withIndex _
  · exact (((h.setBucket b _).unsetSpill _ _).withIndex _).withIndex _

theorem InForm.removeEntry (h : InForm s) (e : IndexEntry) (inSpill : Bool) (b : Nat) :
    InForm (s.removeEntry e inSpill b) := (h.dropEntry e inSpill b).account _ _

/-- R58: a change of its reference count leaves an entry's key as it is. -/
theorem InForm.setRefs (h : InForm s) (e : IndexEntry) (inSpill : Bool) (b refs : Nat) :
    InForm (s.setRefs e inSpill b refs) := .ite (h.setSpill ⟨{ e with refs := refs }, b⟩) (h.setBucket b _)

/-! ## The apply -/

theorem InForm.afterFill (h : InForm s) (n : Nat) : InForm (s.afterFill n) := .ite (h.callBatch n) h

theorem InForm.popLookup (h : InForm s) (q : QLookup) : InForm (s.popLookup q) := (h.withIndex _).leaveFlight _

theorem InForm.finishApply (h : InForm s) (q : QLookup) (v : Verdict) (dep : Option Nat) :
    InForm (s.finishApply q v dep) := by
  unfold State.finishApply
  exact (((h.popLookup q).setSlot _ _).afterFill _).checkMark _

theorem InForm.applyDup (h : InForm s) (q : QLookup) (e : IndexEntry) (inSpill : Bool) (st : ContState) :
    InForm (s.applyDup q e inSpill st) := (h.setRefs e inSpill _ _).finishApply q _ _

theorem InForm.applyNew (h : InForm s) (q : QLookup) (count c : Nat) : InForm (s.applyNew q count c) := by
  unfold State.applyNew
  exact ((h.setContainer c _).insertEntry _ count).finishApply q _ _

theorem InForm.block (h : InForm s) (q : QLookup) (g : Nat) : InForm (s.block q g) :=
  have hblocked := h.withIndex { s.index with
    lookups := { q with state := .blocked, result := none } :: (s.index.lookups.drop 1).map giveUp
    inflight := s.index.inflight.filter (fun b => !(givenUp q (s.index.lookups.drop 1)).contains b)
    starving := some g }
  .ite (.ite (hblocked.enter _) (hblocked.withPlace _)) hblocked

theorem InForm.openContainer (h : InForm s) (g c : Nat) : InForm (s.openContainer g c) :=
  ((h.setContainer c _).setOpenPlace g _).withPlace _

theorem InForm.openAndPlace (h : InForm s) (q : QLookup) (count g : Nat) : InForm (s.openAndPlace q count g) := by
  unfold State.openAndPlace
  split
  · exact (h.openContainer g _).applyNew q count _
  · exact h.block q g

theorem InForm.placeChunk (h : InForm s) (q : QLookup) (count : Nat) : InForm (s.placeChunk q count) := by
  unfold State.placeChunk
  dsimp only
  split
  · exact .ite (h.applyNew q count _) (.ite ((h.closeToFull _ _).openAndPlace q count _) (h.withPlace _))
  · exact h.openAndPlace q count _

theorem InForm.applyMiss (h : InForm s) (q : QLookup) (count : Nat) : InForm (s.applyMiss q count) :=
  .ite (.ite h (h.placeChunk q count)) (h.finishApply q _ _)

theorem InForm.applyLost (h : InForm s) (q : QLookup) (e : IndexEntry) (inSpill : Bool) (count : Nat) :
    InForm (s.applyLost q e inSpill count) :=
  .ite h (.ite (h.withPlace _) (((h.removeEntry e inSpill _).withIndex _).applyMiss _ _))

theorem InForm.applyHead (h : InForm s) : InForm s.applyHead := by
  unfold State.applyHead
  split
  · next q _ _ =>
    split
    · split
      · next e inSpill _ =>
        split
        · exact h.applyDup q e inSpill _
        · exact h.applyDup q e inSpill _
        · exact h.applyDup q e inSpill _
        · exact h.applyLost q e inSpill _
        · exact h
        · exact h
      · exact h.applyMiss q _
    · exact h
  · exact h

/-! ## The port, releases and the sweep -/

theorem InForm.grantLookup (h : InForm s) (i : Nat) : InForm (s.grantLookup i) := by
  unfold State.grantLookup
  split
  · exact h
  · exact h

theorem InForm.completeRead (h : InForm s) (i : Nat) (q : QLookup) : InForm (s.completeRead i q) := .ite h h

theorem InForm.completeRelease (h : InForm s) : InForm s.completeRelease := by
  unfold State.completeRelease
  split
  · exact .ite h h
  · exact h

theorem InForm.countItem (h : InForm s) (it : ReleaseItem) (found freed : Bool) :
    InForm (s.countItem it found freed) := (h.withIndex _).setBranch _ _

theorem InForm.advanceReleases (h : InForm s) (items : List ReleaseItem) : InForm (s.advanceReleases items) := by
  induction items generalizing s with
  | nil => exact h
  | cons it items ih =>
    have hcounted := h.countItem it false false
    exact .ite h (.ite h (ih (.ite hcounted.completeRelease hcounted)))

theorem InForm.finishItem (h : InForm s) (b : Nat) (it : ReleaseItem) (found freed : Bool) :
    InForm (s.finishItem b it found freed) := by
  have hdone := ((h.countItem it found freed).withIndex
    { (s.countItem it found freed).index with other := none }).leaveFlight b
  exact (InForm.ite hdone.completeRelease hdone).advanceReleases _

theorem InForm.releaseOp (h : InForm s) : InForm s.releaseOp := by
  unfold State.releaseOp
  split
  · split
    · exact .ite (h.finishItem _ _ _ _) <|
        .ite (h.finishItem _ _ _ _) <|
        .ite ((h.setRefs _ _ _ _).finishItem _ _ _ _) <|
        .ite h <| .ite h <| (h.removeEntry _ _ _).finishItem _ _ _ _
    · exact h.finishItem _ _ _ _
  · exact h

theorem InForm.sweepEntries (h : InForm s) (b : Nat) (es : List (IndexEntry × Bool)) :
    InForm (s.sweepEntries b es).1 := by
  induction es generalizing s with
  | nil => exact h
  | cons e es ih =>
    unfold State.sweepEntries
    split_ifs
    · exact h
    · exact h
    · exact ih (h.removeEntry _ _ b)
    · exact ih h

theorem InForm.finishSweep (h : InForm s) (b : Nat) : InForm (s.finishSweep b) :=
  (((h.withIndex _).leaveFlight b).withWalker _).restWalker

theorem InForm.sweepOp (h : InForm s) : InForm s.sweepOp := by
  unfold State.sweepOp
  split
  · exact .ite ((h.sweepEntries _ _).finishSweep _) (h.sweepEntries _ _)
  · exact h

/-! ## The lanes and their scheduler -/

theorem InForm.joinLookup (h : InForm s) (lk : Lookup) : InForm (s.joinLookup lk) := (h.setSlot lk.slot _).withIndex _

theorem InForm.laneWait (h : InForm s) (l : Nat) (w : Work) (lk : Lookup) : InForm (s.laneWait l w lk) :=
  (h.setLane l _).withWaitOrder _

theorem InForm.cutData (h : InForm s) (l : Nat) (w : Work) : InForm (s.cutData l w) := by
  unfold State.cutData
  split
  · exact .ite (h.laneWait l _ _) ((h.joinLookup _).setLane l _)
  · exact h

theorem InForm.reportMark (h : InForm s) (l : Nat) (w : Work) (m : Nat) : InForm (s.reportMark l w m) :=
  ((h.setLane l _).setSlot _ _).checkMark _

theorem InForm.reportEnd (h : InForm s) (l : Nat) (w : Work) (m : Nat) : InForm (s.reportEnd l w m) :=
  ((h.setLane l _).setSlot _ _).lastBatch _

theorem InForm.cutMarker (h : InForm s) (l : Nat) (w : Work) (cut : CutReason) {report : State → State}
    (hreport : ∀ u, InForm u → InForm (report u)) : InForm (s.cutMarker l w cut report) :=
  .ite (.ite (h.laneWait l w _) (hreport _ (h.joinLookup _))) (hreport s h)

theorem InForm.laneResume (h : InForm s) (l : Nat) (w : Work) (lk : Lookup) : InForm (s.laneResume l w lk) := by
  have hjoined : InForm { s.joinLookup lk with waitOrder := s.waitOrder.drop 1 } := h.joinLookup lk
  unfold State.laneResume
  dsimp only
  split
  · exact hjoined.setLane l _
  · exact hjoined.reportMark l w _
  · exact hjoined.reportEnd l w _

theorem InForm.finishEntry (h : InForm s) (l n : Nat) (x : Ctx) (len : Nat) : InForm (s.finishEntry l n x len) :=
  ((h.setSlot n _).setLane l _).lastBatch n

/-- R44: a frame start leaves the state of every slot as it is, so that it makes none FREE. -/
theorem state_frameStart (sl : Slot) : sl.frameStart.state = sl.state := by
  unfold Slot.frameStart
  split <;> rfl

theorem eq_free_of_frameStart {sl : Slot} (h : sl.frameStart = Slot.free) : sl = Slot.free := by
  have hfree : sl.state = .free := by rw [← state_frameStart, h]; rfl
  rwa [Slot.frameStart, if_pos hfree] at h

theorem InForm.frameStart (h : InForm s) : InForm s.frameStart :=
  (h.mapSlots fun _ => eq_free_of_frameStart).withSched _

theorem InForm.grantTo (h : InForm s) (l n : Nat) : InForm (s.grantTo l n) := by
  unfold State.grantTo
  dsimp only
  split
  · exact ((h.setSlot n _).withSched _).setLane l _
  · exact h

/-! ## The tick -/

theorem InForm.pacingMatch (h : InForm s) (n : Nat) : InForm (s.pacingMatch n) :=
  .ite (h.setSlot n _) ((h.setSlot n _).callBatch n)

theorem InForm.tickAge (h : InForm s) (n : Nat) : InForm (s.tickAge n) := by
  unfold State.tickAge
  dsimp only
  split
  · exact h.setSlot n _
  · exact h

theorem InForm.tickPacing (h : InForm s) (n : Nat) : InForm (s.tickPacing n) :=
  .ite (h.pacingMatch n) (.ite h (h.setSlot n _))

theorem InForm.tickMark (h : InForm s) (n : Nat) : InForm (s.tickMark n) := .ite (h.violate n) (.ite h (h.setSlot n _))

theorem InForm.tickSlots (h : InForm s) (ns : List Nat) : InForm (s.tickSlots ns) := by
  induction ns generalizing s with
  | nil => exact h
  | cons n ns ih => exact ih (((h.tickAge n).tickPacing n).tickMark n)

/-! ## The record link -/

theorem InForm.linkFault (h : InForm s) (cause : LinkCause) : InForm (s.linkFault cause) := .ite h (.ite h h)

theorem InForm.receiveRecord (h : InForm s) (kind stream tag : Nat) (payload : List Byte) :
    InForm (s.receiveRecord kind stream tag payload) := by
  refine .ite (.ite h (h.linkFault _)) (.ite ((h.withLink _).linkFault _) ?_)
  unfold State.receiveRequest
  dsimp only
  split
  · exact h
  · exact .ite h h

theorem InForm.batchSent (h : InForm s) (n : Nat) : InForm (s.batchSent n) := by
  have hempty := h.setSlot n { s.slot n with madeBatch := none }
  exact .ite (.ite (hempty.tryClose n) (.ite (hempty.makeBatch n) hempty)) hempty

theorem InForm.finishSending (h : InForm s) (src : TxSource) : InForm (s.finishSending src) := by
  unfold State.finishSending
  cases src with
  | reply =>
    dsimp only
    split
    · exact .ite ((h.withLink _).resetTo _ _) h
    · exact h
  | notice c => exact h
  | batch n => exact (h.withLink _).batchSent n

/-! ## The controller -/

theorem InForm.makeReady (h : InForm s) : InForm s.makeReady := .ite h h

theorem InForm.makeSaved (h : InForm s) (w : Settings) : InForm (s.makeSaved w) := .ite h h

theorem InForm.refuseHeld (h : InForm s) : InForm s.refuseHeld := by
  refine .ite ?_ h
  dsimp only
  split
  · exact h
  · exact h

theorem InForm.enterFault (h : InForm s) : InForm s.enterFault := .ite h.refuseHeld h.refuseHeld

theorem InForm.runSeed (h : InForm s) (bad : Option Nat) (w : SeedWork) (es : List SeedEntry) :
    InForm (s.runSeed bad w es) := by
  induction es generalizing bad w with
  | nil =>
    unfold State.runSeed
    dsimp only
    split
    · exact h
    · exact h
  | cons e es ih =>
    exact .ite (h.withCtl _).enterFault (.ite (ih _ _) (.ite (ih _ _) h))

theorem InForm.takeSeedEntry (h : InForm s) (e : SeedEntry) (count : Nat) : InForm (s.takeSeedEntry e count) := by
  unfold State.takeSeedEntry
  exact (h.insertEntry _ count).setContainer _ _

theorem InForm.seedOp (h : InForm s) (bad : Option Nat) : InForm (s.seedOp bad) := by
  unfold State.seedOp
  split
  · next b _ _ =>
    split
    · have hleft : InForm (State.leaveFlight { s with index := { s.index with other := none } } b) := h
      exact .ite (hleft.runSeed _ _ _)
        (.ite ((hleft.takeSeedEntry _ _).runSeed _ _ _) (hleft.runSeed _ _ _))
    · exact h
  · exact h

theorem InForm.reclaimRun (h : InForm s) (made : Nat) (cs : List (Nat × Container)) :
    InForm (s.reclaimRun made cs).1 := by
  induction cs generalizing s made with
  | nil => exact h
  | cons c cs ih =>
    unfold State.reclaimRun
    split_ifs
    · exact ih (h.reclaim _) _
    · exact h
    · exact ih h _

theorem InForm.enterService (h : InForm s) (made : Nat) : InForm (s.enterService made) := by
  have hserving : ∀ free, InForm { s with
      place := { s.place with freeList := free }
      ctl := { s.ctl with dev := .service, beginWork := none } } := fun _ => h
  unfold State.enterService
  dsimp only
  split
  · exact (hserving _).answer _ _ _
  · exact hserving _

theorem InForm.runBegin (h : InForm s) (made : Nat) (bad : Option Nat) : InForm (s.runBegin made bad) := by
  have hrun := h.reclaimRun made (recordsBefore bad s.place.containers)
  unfold State.runBegin
  split
  · next hc =>
    rw [hc] at hrun
    exact hrun
  · next u made' hc =>
    rw [hc] at hrun
    exact .ite (hrun.withCtl _).enterFault (hrun.enterService made')

/-! ## The requests -/

theorem InForm.takeReset (h : InForm s) : InForm (takeReset r s) := .ite h h

theorem InForm.takeSetSetting (h : InForm s) : InForm (takeSetSetting r s) := by
  refine .ite h (.ite h ?_)
  split
  · exact h
  · exact h

theorem InForm.takeSaveSettings (h : InForm s) : InForm (takeSaveSettings r s) := .ite h (.ite h h)

theorem InForm.takeDeclare (h : InForm s) : InForm (takeDeclare r s) :=
  .ite h (.ite h (.ite h ((h.setContainer _ _).answer r _ _)))

theorem InForm.takeSeed (h : InForm s) (bad : Option Nat) : InForm (takeSeed r bad s) :=
  .ite h (.ite h (h.runSeed bad _ _))

theorem InForm.takeBeginService (h : InForm s) (bad : Option Nat) : InForm (takeBeginService r bad s) :=
  .ite h (h.runBegin 0 bad)

theorem InForm.openSlot (h : InForm s) (n branch group : Nat) (v : OpenValues) :
    InForm (s.openSlot n branch group v) := (h.setSlot n _).setBranch branch _

theorem InForm.takeOpen (h : InForm s) : InForm (takeOpen r s) := by
  refine .ite h ?_
  split
  · exact h
  · refine .ite h (.ite h ?_)
    split
    · exact h
    · split
      · exact h
      · exact (h.openSlot _ _ _ _).answer r _ _

theorem InForm.takeData (h : InForm s) : InForm (takeData r s) := by
  unfold Machine.takeData
  split
  · exact h.setSlot r.stream _
  · exact .ite h h

theorem InForm.takeSetWeight (h : InForm s) : InForm (takeSetWeight r s) := by
  unfold Machine.takeSetWeight
  split
  · exact h
  · exact (h.setSlot _ _).answer r _ _

theorem InForm.takeSetPacing (h : InForm s) : InForm (takeSetPacing r s) := by
  unfold Machine.takeSetPacing
  split
  · exact h
  · exact (h.setSlot _ _).answer r _ _

theorem InForm.takeSnapshot (h : InForm s) : InForm (takeSnapshot r s) := by
  unfold Machine.takeSnapshot
  split
  · exact h
  · exact h

theorem InForm.takeClose (h : InForm s) : InForm (takeClose r s) := by
  unfold Machine.takeClose
  split
  · exact h
  · dsimp only
    split
    · exact h
    · exact (h.setSlot _ _).answer r _ _

theorem InForm.afterAbort (h : InForm s) (n : Nat) : InForm (s.afterAbort n) :=
  .ite ((h.discardReports n).tryClose n) (h.lastBatch n)

theorem InForm.takeAbort (h : InForm s) : InForm (takeAbort r s) := by
  unfold Machine.takeAbort
  split
  · exact h
  · exact ((h.setSlot _ _).answer r _ _).afterAbort _

theorem InForm.takeMark (h : InForm s) : InForm (takeMark r s) := by
  unfold Machine.takeMark
  split
  · exact h
  · split
    · exact h
    · exact (h.setSlot _ _).answer r _ _

theorem InForm.takeSeal (h : InForm s) : InForm (takeSeal r s) := by
  unfold Machine.takeSeal
  split
  · exact h
  · dsimp only
    split
    · exact h
    · exact ((h.setSlot _ _).answer r _ _).checkMark _

theorem InForm.takeReadReport (h : InForm s) : InForm (takeReadReport r s) := by
  unfold Machine.takeReadReport
  split
  · exact h
  · dsimp only
    split
    · exact h
    · exact h

theorem InForm.ackReport (h : InForm s) (r : Request) (old : Report) : InForm (s.ackReport r old) := by
  unfold State.ackReport
  dsimp only
  split
  · exact ((h.setSlot _ _).enterReport _ _).answer r _ _
  · exact ((h.setSlot _ _).answer r _ _).tryClose _

theorem InForm.takeAckReport (h : InForm s) : InForm (takeAckReport r s) := by
  unfold Machine.takeAckReport
  split
  · exact h
  · split
    · exact h
    · exact .ite h (h.ackReport r _)

theorem InForm.takeRetime (h : InForm s) : InForm (takeRetime r s) := by
  unfold Machine.takeRetime
  split
  · exact h
  · exact .ite h ((h.setSlot _ _).answer r _ _)

theorem InForm.makeDurable (h : InForm s) (c : Nat) : InForm (s.makeDurable c) :=
  .ite (((h.setContainer c _).withPlace _).reclaim c) ((h.setContainer c _).withPlace _)

theorem InForm.makeLost (h : InForm s) (c : Nat) : InForm (s.makeLost c) :=
  .ite (((h.setContainer c _).withPlace _).freeLost c) (((h.setContainer c _).withPlace _).withWalker _)

theorem InForm.takeDurable (h : InForm s) : InForm (takeDurable r s) :=
  .ite h <| .ite h <| .ite h <|
    (((h.makeDurable _).mapSpans _).answer r _ _).checkMarks _

theorem InForm.takeLost (h : InForm s) : InForm (takeLost r s) :=
  .ite h <| .ite h <| .ite h <|
    (((h.makeLost _).mapSpans _).answer r _ _).checkMarks _

theorem InForm.takeFree (h : InForm s) : InForm (takeFree r s) := by
  unfold Machine.takeFree
  exact .ite h <| .ite h <|
    ((h.withPlace _).freeContainer _).answer r _ _

theorem InForm.takeFlush (h : InForm s) : InForm (takeFlush r s) := by
  refine .ite h (.ite h ?_)
  split
  · exact h
  · exact .ite ((h.closeToFull _ _).answer r _ _) h

theorem InForm.takeQueryContainer (h : InForm s) : InForm (takeQueryContainer r s) := .ite h h

theorem InForm.takeRelease (h : InForm s) : InForm (takeRelease r s) :=
  .ite h <| .ite h <| .ite h <| .ite h <|
    (h.answer r _ _).advanceReleases _

theorem InForm.takeClearHold (h : InForm s) : InForm (takeClearHold r s) := .ite h ((h.setBranch _ _).answer r _ _)

theorem InForm.takeResetBaseline (h : InForm s) : InForm (takeResetBaseline r s) :=
  .ite h <| .ite h <|
    (InForm.foldl (fun _ n hu => hu.setBranch n _) (baselineList r.payload) h).answer r _ _

theorem InForm.takeQueryBranch (h : InForm s) : InForm (takeQueryBranch r s) := .ite h h

/-- R156: a request row. -/
theorem InForm.row {i : Instr} {kind : ReqKind} {take : Request → State → State}
    (hrow : rowTaking i = some (kind, take)) (h : InForm s) (r : Request) : InForm (take r s) := by
  have hnoted := h.noteCorrected
  cases i <;> cases hrow
  case status => exact h.answer r _ _
  case reset => exact h.takeReset
  case setSetting => exact h.takeSetSetting
  case saveSettings => exact h.takeSaveSettings
  case declare k => exact (hnoted k).takeDeclare
  case seed k bad => exact (hnoted k).takeSeed bad
  case beginService k bad => exact (hnoted k).takeBeginService bad
  case openStream => exact h.takeOpen
  case data => exact h.takeData
  case mark => exact h.takeMark
  case readReport => exact h.takeReadReport
  case ackReport => exact h.takeAckReport
  case retime => exact h.takeRetime
  case setWeight => exact h.takeSetWeight
  case setPacing => exact h.takeSetPacing
  case snapshot => exact h.takeSnapshot
  case close => exact h.takeClose
  case abort k => exact (hnoted k).takeAbort
  case durable k => exact (hnoted k).takeDurable
  case lost k => exact (hnoted k).takeLost
  case free k => exact (hnoted k).takeFree
  case flush k => exact (hnoted k).takeFlush
  case queryContainer k => exact (hnoted k).takeQueryContainer
  case release => exact h.takeRelease
  case clearHold => exact h.takeClearHold
  case resetBaseline => exact h.takeResetBaseline
  case queryBranch => exact h.takeQueryBranch
  -- SEAL is left: its name is a keyword, which a case cannot give.
  exact (hnoted _).takeSeal

/-! ## A held container notice -/

theorem InForm.resumeRequest (h : InForm s) : InForm s.resumeRequest := by
  unfold State.resumeRequest
  split
  · split
    · exact h.takeDurable
    · exact h.takeLost
    · exact h.takeFlush
    · exact h
  · exact h

theorem InForm.resumeStarved (h : InForm s) : InForm s.resumeStarved := by
  unfold State.resumeStarved
  split
  · exact h
  · exact h

theorem InForm.resumePlace (h : InForm s) (x : PlaceHold) : InForm (s.resumePlace x) := by
  have hfreed := h.unholdPlace
  match x with
  | .apply => exact hfreed.applyHead
  | .release => exact hfreed.releaseOp
  | .sweep => exact hfreed.sweepOp
  | .request => exact hfreed.resumeRequest
  | .seal n => exact hfreed.checkMark n
  | .starved => exact hfreed.resumeStarved

/-! ## The commands -/

/-- A next state, if that is the outcome, holds the tables in their canonical form. -/
def KeepsForm (o : Host.Outcome State Fault Refusal) : Prop := ∀ t, o = .next t → InForm t

theorem keepsForm_next (h : InForm s) : KeepsForm (.next s) := fun _ ht => Host.Outcome.next.inj ht ▸ h

theorem keepsForm_ite {c : Prop} [Decidable c] {o o' : Host.Outcome State Fault Refusal} (h : KeepsForm o)
    (h' : KeepsForm o') : KeepsForm (if c then o else o') := by
  split
  · exact h
  · exact h'

/-- Log entry 10: a command acts if its conditions hold, and otherwise the state stays as it is. -/
theorem keepsForm_when {c : Prop} [Decidable c] (ht : InForm t) (h : InForm s) :
    KeepsForm (if c then .next t else .next s) := keepsForm_ite (keepsForm_next ht) (keepsForm_next h)

theorem keepsForm_unless {c : Prop} [Decidable c] (ht : InForm t) (h : InForm s) :
    KeepsForm (if c then .next s else .next t) := keepsForm_ite (keepsForm_next h) (keepsForm_next ht)

theorem keepsForm_row {i : Instr} {kind : ReqKind} {take : Request → State → State}
    (hrow : rowTaking i = some (kind, take)) (h : InForm s) : KeepsForm (exec i s) := by
  rw [exec_requestRow hrow]
  split
  · exact keepsForm_next (InForm.row hrow h _)
  · exact keepsForm_next h

/-! ### Start-up, the settings store, faults -/

/-- R168: index memory has been cleared, and its tables list nothing. -/
theorem keepsForm_indexMemoryClearDone (h : InForm s) : KeepsForm (execIndexMemoryClearDone s) := by
  have ⟨hslots, hlanes, _, _, _, hopen, hbranches, _⟩ := h
  have hcleared : InForm { s with
      ctl := { s.ctl with clearing := false }
      index := { s.index with buckets := [], spill := [], entryCount := 0, spillCount := 0 }
      place := { s.place with containers := [] } } :=
    ⟨hslots, hlanes, rfl, rfl, rfl, hopen, hbranches, nofun⟩
  exact keepsForm_when hcleared.makeReady h

theorem keepsForm_settingsProgramDone (h : InForm s) : KeepsForm (execSettingsProgramDone s) := by
  unfold execSettingsProgramDone
  split
  · exact keepsForm_unless ((h.withCtl _).makeSaved _) h
  · exact keepsForm_next h

theorem keepsForm_heldSettingsSavedEntry (h : InForm s) : KeepsForm (execHeldSettingsSavedEntry s) := by
  unfold execHeldSettingsSavedEntry
  split
  · exact keepsForm_when (h.makeSaved _) h
  · exact keepsForm_next h

theorem keepsForm_seedOpDone (h : InForm s) (k : Nat) (bad : Option Nat) : KeepsForm (execSeedOpDone k s bad) := by
  have hnoted := h.noteCorrected k
  unfold execSeedOpDone
  split
  · exact keepsForm_ite (keepsForm_next (hnoted.seedOp bad)) (keepsForm_when hnoted h)
  · exact keepsForm_next h

theorem keepsForm_indexMemoryError (h : InForm s) : KeepsForm (execIndexMemoryError s) := by
  refine keepsForm_ite (keepsForm_next h) ?_
  split
  · exact keepsForm_next h.enterFault
  · exact keepsForm_next h.enterFault
  · exact keepsForm_next (h.noteCorrected 1)
  · exact keepsForm_next h

theorem keepsForm_pendingFaultEntry (h : InForm s) : KeepsForm (execPendingFaultEntry s) := by
  unfold execPendingFaultEntry
  split
  · exact keepsForm_when h h
  · exact keepsForm_next h

/-! ### The record link -/

theorem keepsForm_frameReceived (h : InForm s) (bytes : List Byte) : KeepsForm (execFrameReceived bytes s) := by
  refine keepsForm_ite (keepsForm_next h) ?_
  split
  · exact keepsForm_next (h.linkFault _)
  · exact keepsForm_next (h.receiveRecord _ _ _ _)

theorem keepsForm_transmitStart (h : InForm s) : KeepsForm (execTransmitStart s) := by
  unfold execTransmitStart
  split
  · exact keepsForm_when h h
  · exact keepsForm_next h

theorem keepsForm_frameTransmitted (h : InForm s) (k : Nat) : KeepsForm (execFrameTransmitted s k) := by
  unfold execFrameTransmitted
  split
  · exact keepsForm_unless ((h.noteCorrected k).finishSending _) h
  · exact keepsForm_next h

theorem keepsForm_pendingLinkFaultEntry (h : InForm s) : KeepsForm (execPendingLinkFaultEntry s) := by
  unfold execPendingLinkFaultEntry
  split
  · exact keepsForm_when h h
  · exact keepsForm_next h

theorem keepsForm_heldDataRefusedEntry (h : InForm s) : KeepsForm (execHeldDataRefusedEntry s) := by
  unfold execHeldDataRefusedEntry
  split
  · exact keepsForm_when h h
  · exact keepsForm_next h

/-! ### The lanes and their scheduler -/

theorem keepsForm_grant (h : InForm s) : KeepsForm (execGrant s) := by
  have hframe : InForm (if s.frameEnds then s.frameStart else s) := .ite h.frameStart h
  unfold execGrant
  split
  · refine keepsForm_ite ?_ (keepsForm_next h)
    dsimp only
    split
    · exact keepsForm_next (hframe.grantTo _ _)
    · exact keepsForm_next hframe
  · exact keepsForm_next h

theorem keepsForm_laneCut (h : InForm s) (l : Nat) : KeepsForm (execLaneCut l s) := by
  unfold execLaneCut
  split
  · split
    · exact keepsForm_when (h.cutData l _) h
    · exact keepsForm_next h
    · exact keepsForm_next h
  · exact keepsForm_next h

theorem keepsForm_laneMarkMarker (h : InForm s) (l k : Nat) : KeepsForm (execLaneMarkMarker l k s) := by
  have hnoted := h.noteCorrected k
  unfold execLaneMarkMarker
  split
  · split
    · exact keepsForm_when (hnoted.cutMarker l _ _ fun _ hu => hu.reportMark l _ _) h
    · exact keepsForm_next h
    · exact keepsForm_next h
  · exact keepsForm_next h

theorem keepsForm_laneEndMarker (h : InForm s) (l : Nat) : KeepsForm (execLaneEndMarker l s) := by
  unfold execLaneEndMarker
  split
  · split
    · exact keepsForm_when (h.cutMarker l _ _ fun _ hu => hu.reportEnd l _ _) h
    · exact keepsForm_next h
    · exact keepsForm_next h
  · exact keepsForm_next h

theorem keepsForm_laneLookupJoin (h : InForm s) (k : Nat) : KeepsForm (execLaneLookupJoin k s) := by
  unfold execLaneLookupJoin
  split
  · split
    · split
      · exact keepsForm_when ((h.noteCorrected k).laneResume _ _ _) h
      · exact keepsForm_next h
    · exact keepsForm_next h
  · exact keepsForm_next h

theorem keepsForm_laneEntryFinish (h : InForm s) (l k : Nat) : KeepsForm (execLaneEntryFinish l s k) := by
  have hdone := (h.noteCorrected k).finishEntry l
  unfold execLaneEntryFinish
  split
  · refine keepsForm_ite ?_ (keepsForm_next h)
    split
    · split
      · exact keepsForm_next (hdone _ _ _)
      · exact keepsForm_next h
    · exact keepsForm_when (hdone _ _ _) h
    · exact keepsForm_when (hdone _ _ _) h
  · exact keepsForm_next h

/-! ### The index unit -/

theorem keepsForm_lookupPortGrant (h : InForm s) : KeepsForm (execLookupPortGrant s) := by
  unfold execLookupPortGrant
  split
  · exact keepsForm_when (h.grantLookup _) h
  · exact keepsForm_next h

theorem keepsForm_lookupReadDone (h : InForm s) (i k : Nat) : KeepsForm (execLookupReadDone i k s) := by
  have hnoted := h.noteCorrected k
  unfold execLookupReadDone
  split
  · exact keepsForm_ite (keepsForm_ite (keepsForm_next (hnoted.completeRead i _)) (keepsForm_when hnoted h))
      (keepsForm_next h)
  · exact keepsForm_next h

theorem keepsForm_releasePortGrant (h : InForm s) : KeepsForm (execReleasePortGrant s) := by
  unfold execReleasePortGrant
  split
  · exact keepsForm_when h h
  · exact keepsForm_next h

theorem keepsForm_releaseOpDone (h : InForm s) (k : Nat) : KeepsForm (execReleaseOpDone k s) := by
  have hnoted := h.noteCorrected k
  unfold execReleaseOpDone
  split
  · exact keepsForm_ite (keepsForm_next hnoted.releaseOp) (keepsForm_when hnoted h)
  · exact keepsForm_next h

theorem keepsForm_heldReleaseCompleteEntry (h : InForm s) : KeepsForm (execHeldReleaseCompleteEntry s) :=
  keepsForm_when (h.completeRelease.advanceReleases _) h

theorem keepsForm_sweepOpDone (h : InForm s) (k : Nat) : KeepsForm (execSweepOpDone k s) := by
  have hnoted := h.noteCorrected k
  unfold execSweepOpDone
  split
  · exact keepsForm_ite (keepsForm_next hnoted.sweepOp) (keepsForm_when hnoted h)
  · exact keepsForm_next h

/-! ### Held events -/

theorem keepsForm_heldReportEntry (h : InForm s) (n : Nat) : KeepsForm (execHeldReportEntry n s) := by
  unfold execHeldReportEntry
  split
  · exact keepsForm_when ((h.setSlot n _).enterReport n _) h
  · exact keepsForm_next h

theorem keepsForm_heldAckReport (h : InForm s) : KeepsForm (execHeldAckReport s) := by
  unfold execHeldAckReport
  split
  · exact keepsForm_when (h.withMarks _).takeAckReport h
  · exact keepsForm_next h

theorem keepsForm_heldSurgeEntry (h : InForm s) (order : List Nat) : KeepsForm (execHeldSurgeEntry order s) := by
  unfold execHeldSurgeEntry
  split
  · next g _ =>
    have hentered := (h.withMonitor { s.monitor with surgeHeld := none }).enterSurge g
    exact keepsForm_when ((hentered.withMarks _).takeHandOns _) h
  · exact keepsForm_next h

theorem keepsForm_heldContainerNoticeEntry (h : InForm s) (k : Nat) (bad : Option Nat) :
    KeepsForm (execHeldContainerNoticeEntry k bad s) := by
  have hnoted := h.noteCorrected k
  refine keepsForm_ite (keepsForm_next h) ?_
  split
  · exact keepsForm_next (hnoted.runBegin _ bad)
  · exact keepsForm_next ((hnoted.resumePlace _).checkMarks _)
  · exact keepsForm_next h

/-! ### Every command -/

theorem exec_keepsForm (i : Instr) (h : InForm s) : KeepsForm (exec i s) := by
  have hnoted := h.noteCorrected
  cases hrow : rowTaking i with
  | some row => exact keepsForm_row hrow h
  | none =>
    cases i <;> simp only [rowTaking, reduceCtorEq] at hrow
    case powerOnReset => exact keepsForm_next (h.resetTo _ _)
    case resetPinAssert => exact keepsForm_next (h.resetTo _ _)
    case resetPinRelease => exact keepsForm_when (h.resetTo _ _) h
    case indexMemoryClearDone => exact keepsForm_indexMemoryClearDone h
    case frameReceived bytes => exact keepsForm_frameReceived h bytes
    case credit count => exact keepsForm_unless h h
    case settingsProgramDone => exact keepsForm_settingsProgramDone h
    case seedOpDone k bad => exact keepsForm_seedOpDone h k bad
    case transmitStart => exact keepsForm_transmitStart h
    case frameTransmitted k => exact keepsForm_frameTransmitted h k
    case tick k => exact keepsForm_when ((hnoted k).tickSlots _) h
    case pacingMatch n k => exact keepsForm_when ((hnoted k).pacingMatch n) h
    case markTimerLimit n k => exact keepsForm_when ((hnoted k).violate n) h
    case grant => exact keepsForm_grant h
    case laneCut l => exact keepsForm_laneCut h l
    case laneLookupJoin k => exact keepsForm_laneLookupJoin h k
    case laneMarkMarker l k => exact keepsForm_laneMarkMarker h l k
    case laneEndMarker l => exact keepsForm_laneEndMarker h l
    case laneEntryFinish l k => exact keepsForm_laneEntryFinish h l k
    case lookupPortGrant => exact keepsForm_lookupPortGrant h
    case lookupReadDone i k => exact keepsForm_lookupReadDone h i k
    case indexMemoryError => exact keepsForm_indexMemoryError h
    case lookupApply k => exact keepsForm_when ((hnoted k).applyHead) h
    case releasePortGrant => exact keepsForm_releasePortGrant h
    case releaseOpDone k => exact keepsForm_releaseOpDone h k
    case sweepPortGrant => exact keepsForm_when h h
    case sweepOpDone k => exact keepsForm_sweepOpDone h k
    case heldReadyEntry => exact keepsForm_when h.makeReady h
    case heldDataRefusedEntry => exact keepsForm_heldDataRefusedEntry h
    case heldStreamClosedEntry n => exact keepsForm_next (h.tryClose n)
    case heldContainerNoticeEntry k bad => exact keepsForm_heldContainerNoticeEntry h k bad
    case heldReportEntry n => exact keepsForm_heldReportEntry h n
    case heldAckReport => exact keepsForm_heldAckReport h
    case heldSurgeEntry order => exact keepsForm_heldSurgeEntry h order
    case heldReleaseCompleteEntry => exact keepsForm_heldReleaseCompleteEntry h
    case heldSettingsSavedEntry => exact keepsForm_heldSettingsSavedEntry h
    case pendingFaultEntry => exact keepsForm_pendingFaultEntry h
    case pendingLinkFaultEntry => exact keepsForm_pendingLinkFaultEntry h

/-! ## The statements -/

theorem step_of_pending {c : Instr} {rest : List Instr} (h : s.pending = c :: rest) :
    step s = exec c (s.withPending rest) := by simp only [step, h]

theorem step_of_idle (h : s.pending = []) : step s = .next s := by simp only [step, h]

/-- Settles O1, by whether a command waits. -/
theorem stepTakesTheFront : Obligations.StepTakesTheFront := ⟨fun _ _ _ => step_of_pending, fun _ => step_of_idle⟩

/-- Settles O3: the command at the front keeps the form; on an empty queue nothing changes. -/
theorem tablesStayCanonical : Obligations.TablesStayCanonical := by
  intro s t hs hstep
  cases hp : s.pending with
  | cons c rest => exact exec_keepsForm (s := s.withPending rest) c hs t (step_of_pending hp ▸ hstep)
  | nil => exact keepsForm_next hs t (step_of_idle hp ▸ hstep)

end Sys2Proof.CanonicalTables

/-! PROOFS. The fingerprint index (chapter 4): the arbiter of the index-memory port, the completion of a read with its
search, and the apply of the lookup at the head. A grant that is made and one that is not have an equation each; an
apply is `applyHead` once its corrected errors are noted (`exec_lookupApply`), `applyHead` has an equation per result
that a lookup can hold, and the placement of a chunk has one per state of its group's place and of the free list. -/

namespace Sys2Proof.FingerprintIndex

open Machine BranchStreams

variable {s : State} {q : QLookup} {later : List QLookup} {e : IndexEntry} {inSpill : Bool} {it : ReleaseItem}
  {i k g c count : Nat}

/-! ## Claims on the port -/

theorem releaseClaim_eq_none : s.releaseClaim = none ↔ ∀ it, ¬ s.ReleaseClaims it := by
  simp only [Option.eq_none_iff_forall_ne_some, ne_eq, releaseClaim_eq_some]

theorem lookupClaim_ne_none : s.lookupClaim ≠ none ↔ ∃ i, s.LookupClaims i := by
  simp only [ne_eq, lookupClaim_eq_none, not_forall, not_not]

theorem sweepClaim_iff : s.sweepClaim = true ↔
    s.walker.sweeping = true ∧ s.index.other = none ∧ s.walker.position ∉ s.index.inflight := by
  simp [State.sweepClaim, and_assoc]

/-- R72: a release item goes before the lookups once it claims and 8 of them have passed it. -/
theorem releaseFirst_iff : s.releaseFirst = true ↔ (∃ it, s.ReleaseClaims it) ∧ 8 ≤ s.index.passed := by
  simp only [State.releaseFirst, Bool.and_eq_true, Option.isSome_iff_exists, releaseClaim_eq_some, decide_eq_true_eq,
    Config.releaseShare]

theorem releaseFirst_eq_false (h : ∀ it, s.ReleaseClaims it → s.index.passed < 8) : s.releaseFirst = false := by
  rw [← Bool.not_eq_true, releaseFirst_iff]
  rintro ⟨⟨it, hit⟩, h8⟩
  exact absurd (h it hit) (Nat.not_lt.2 h8)

/-! ## Grants -/

/-- R72: the count rises while an item waits at the head whose own operation is not in progress (log entry 12). -/
theorem passed_grantLookup : (if s.releaseWaits then s.index.passed + 1 else s.index.passed) =
    match s.index.releases, s.index.other with
    | [], _ => s.index.passed
    | _ :: _, some (.release _) => s.index.passed
    | _ :: _, _ => s.index.passed + 1 := by
  unfold State.releaseWaits
  cases s.index.releases with
  | nil => rfl
  | cons it later =>
    cases s.index.other with
    | none => rfl
    | some op => cases op <;> rfl

theorem exec_lookupPortGrant (hs : s.inService = true) (hc : s.lookupClaim = some i) (hf : s.releaseFirst = false) :
    exec .lookupPortGrant s = .next (s.grantLookup i) := by
  simp only [exec, execLookupPortGrant, hc, hs, hf, Bool.not_false, Bool.and_self, if_true]

theorem exec_lookupPortGrant_idle (h : s.lookupClaim = none ∨ s.releaseFirst = true) :
    exec .lookupPortGrant s = .next s := by
  simp only [exec, execLookupPortGrant]
  rcases h with h | h
  · rw [h]
  · simp only [h, Bool.not_true, Bool.and_false, Bool.false_eq_true, if_false]
    split <;> rfl

theorem exec_releasePortGrant (hs : s.inService = true) (hc : s.releaseClaim = some it)
    (hf : s.lookupClaim = none ∨ s.releaseFirst = true) :
    exec .releasePortGrant s = .next { s with index := { s.index with
      other := some (.release (bucketOf it.fp)), passed := 0
      inflight := s.index.inflight ++ [bucketOf it.fp] } } := by
  have hgo : (s.inService && (s.lookupClaim.isNone || s.releaseFirst)) = true := by
    rcases hf with hf | hf <;> simp [hs, hf]
  simp only [exec, execReleasePortGrant, hc, hgo, if_true]
  rfl

theorem exec_releasePortGrant_idle (h : s.releaseClaim = none ∨ s.lookupClaim ≠ none ∧ s.releaseFirst = false) :
    exec .releasePortGrant s = .next s := by
  simp only [exec, execReleasePortGrant]
  rcases h with h | ⟨h, hf⟩
  · rw [h]
  · have hsome : s.lookupClaim.isNone = false := by simpa [Option.isSome_iff_ne_none] using h
    simp only [hsome, hf, Bool.or_self, Bool.and_false, Bool.false_eq_true, if_false]
    split <;> rfl

theorem exec_sweepPortGrant (hs : s.inService = true) (hc : s.sweepClaim = true) (hl : s.lookupClaim = none)
    (hr : s.releaseClaim = none) :
    exec .sweepPortGrant s = .next { s with index := { s.index with
      other := some (.sweep s.walker.position)
      inflight := s.index.inflight ++ [s.walker.position] } } := by
  simp only [exec, execSweepPortGrant, hs, hc, hl, hr, Option.isNone_none, Bool.and_self, if_true]
  rfl

theorem exec_sweepPortGrant_idle (h : s.sweepClaim = false ∨ s.lookupClaim ≠ none ∨ s.releaseClaim ≠ none) :
    exec .sweepPortGrant s = .next s := by
  refine if_neg ?_
  rcases h with h | h | h <;> simp [h]

/-- Settles O45: whom the arbiter finds claiming (`lookupClaim_eq_some`, `releaseClaim_eq_some`), and what the three
grants then are. -/
theorem portGrantsInOrder : Obligations.PortGrantsInOrder := by
  intro s hd hp
  have hs : s.inService = true := inService_iff.2 ⟨hd, hp⟩
  refine ⟨fun i q hi hq hfirst hpassed => ?_, fun it hit hgo => ⟨?_, fun h8 => ?_⟩, fun hl h8 => ?_,
    fun hw ho hb hl hr => ?_, fun h => ?_, fun h => ?_, fun h => ?_, fun h => ?_⟩
  · rw [exec_lookupPortGrant hs (lookupClaim_eq_some.2 ⟨hi, hfirst⟩) (releaseFirst_eq_false hpassed)]
    simp only [State.grantLookup, hq, passed_grantLookup]
    rfl
  · exact exec_releasePortGrant hs (releaseClaim_eq_some.2 hit)
      (hgo.imp lookupClaim_eq_none.2 fun h8 => releaseFirst_iff.2 ⟨⟨it, hit⟩, h8⟩)
  · exact exec_lookupPortGrant_idle (.inr (releaseFirst_iff.2 ⟨⟨it, hit⟩, h8⟩))
  · exact exec_releasePortGrant_idle (.inr ⟨lookupClaim_ne_none.2 hl, releaseFirst_eq_false fun _ _ => h8⟩)
  · exact exec_sweepPortGrant hs (sweepClaim_iff.2 ⟨hw, ho, hb⟩) (lookupClaim_eq_none.2 hl)
      (releaseClaim_eq_none.2 hr)
  · refine exec_sweepPortGrant_idle (.inr (h.imp lookupClaim_ne_none.2 fun ⟨it, hit⟩ hn => ?_))
    exact releaseClaim_eq_none.1 hn it hit
  · refine exec_sweepPortGrant_idle (.inl (Bool.eq_false_iff.2 fun hc => ?_))
    obtain ⟨hw, ho, hb⟩ := sweepClaim_iff.1 hc
    rcases h with h | h | h
    · simp [hw] at h
    · exact h ho
    · exact hb h
  · exact exec_lookupPortGrant_idle (.inl (lookupClaim_eq_none.2 h))
  · exact exec_releasePortGrant_idle (.inl (releaseClaim_eq_none.2 h))

/-! ## Reads -/

/-- R64: the read of a READING lookup completes. -/
theorem exec_lookupReadDone (hs : s.inService = true) (hq : s.index.lookups[i]? = some q) (hr : q.state = .reading) :
    exec (.lookupReadDone i k) s = .next ((s.noteCorrected k).completeRead i q) := by
  simp only [exec, execLookupReadDone, hq, hr, hs, if_true]

theorem exec_lookupReadDone_fault (hd : s.ctl.dev = .fault) (hp : s.ctl.pinHeld = false)
    (hq : s.index.lookups[i]? = some q) (hr : q.state = .reading) :
    exec (.lookupReadDone i k) s = .next (s.noteCorrected k) := by
  have hn : s.inService = false := by simp [State.inService, hd]
  have hf : s.inFault = true := by simp [State.inFault, hd, hp]
  simp only [exec, execLookupReadDone, hq, hr, hn, hf, if_true, Bool.false_eq_true, if_false]

theorem completeRead_open (h : headBlocked s.index.lookups = false) :
    s.completeRead i q = { s with index := { s.index with
      lookups := s.index.lookups.set i
        { q with state := .read, result := some (s.search q.lk.bucket q.lk.fp q.lk.length) } } } := by
  simp only [State.completeRead, h, Bool.false_eq_true, if_false]

theorem completeRead_blocked (h : headBlocked s.index.lookups = true) :
    s.completeRead i q = { s with index := { s.index with
      lookups := s.index.lookups.set i { q with state := .pending, result := none }
      inflight := s.index.inflight.filter (fun x => x != q.lk.bucket) } } := by
  simp only [State.completeRead, h, if_true]
  rfl

theorem headBlocked_eq_true {h : QLookup} (hh : s.index.lookups[0]? = some h) (hb : h.state = .blocked) :
    headBlocked s.index.lookups = true :=
  Bool.of_not_eq_false fun hn => (headBlocked_eq_false s).1 hn h hh hb

theorem hasKey_eq_false {x : IndexEntry} {fp : Fp} {len : Nat} (h : ¬ (x.fp = fp ∧ x.length = len)) :
    x.hasKey fp len = false := Bool.eq_false_iff.2 fun hk => h ((StartUp.hasKey_iff x fp len).1 hk)

/-- R55: the first entry of the key among the bucket's, oldest first. -/
theorem find_hasKey {pre post : List IndexEntry} {fp : Fp} {len : Nat} (hfp : e.fp = fp) (hlen : e.length = len)
    (hpre : ∀ x ∈ pre, ¬ (x.fp = fp ∧ x.length = len)) :
    (pre ++ e :: post).find? (fun x => x.hasKey fp len) = some e := by
  have hnone : pre.find? (fun x => x.hasKey fp len) = none :=
    List.find?_eq_none.2 fun x hx => by simp [hasKey_eq_false (hpre x hx)]
  rw [List.find?_append, hnone, Option.none_or]
  exact List.find?_cons_of_pos ((StartUp.hasKey_iff e fp len).2 ⟨hfp, hlen⟩)

theorem search_of_found {b : Nat} {fp : Fp} {len : Nat}
    (h : (s.bucket b).entries.find? (fun x => x.hasKey fp len) = some e) :
    s.search b fp len = ⟨some (e, false), (s.bucket b).entries.length⟩ := by
  simp only [State.search, h]

/-- R55, R64: with no such entry in the bucket the spill table decides, where the bucket's spill count is above 0. -/
theorem search_of_absent {b : Nat} {fp : Fp} {len : Nat}
    (h : ∀ x ∈ (s.bucket b).entries, ¬ (x.fp = fp ∧ x.length = len)) :
    s.search b fp len =
      if 0 < (s.bucket b).spill then
        ⟨(s.spillAt fp len).map (fun x => (x.entry, true)), (s.bucket b).entries.length⟩
      else ⟨none, (s.bucket b).entries.length⟩ := by
  have hnone : (s.bucket b).entries.find? (fun x => x.hasKey fp len) = none :=
    List.find?_eq_none.2 fun x hx => by simp [hasKey_eq_false (h x hx)]
  simp only [State.search, hnone]

/-- Settles O46: the completion by the head's state, and the search by whether the bucket has an entry of the key. -/
theorem readsCompleteWithTheSearch : Obligations.ReadsCompleteWithTheSearch := by
  refine ⟨fun i k s q hq hr hp => ⟨fun hd hopen => ?_, fun h hd hh hb => ?_, fun hd => ?_⟩, fun s b fp len =>
    ⟨fun pre e post he hfp hlen hpre => ?_, fun habsent => ⟨fun hs => ?_, fun hs => ?_⟩⟩⟩
  · rw [exec_lookupReadDone (inService_iff.2 ⟨hd, hp⟩) hq hr,
      completeRead_open (s := s.noteCorrected k) ((headBlocked_eq_false s).2 hopen)]
    rfl
  · rw [exec_lookupReadDone (inService_iff.2 ⟨hd, hp⟩) hq hr,
      completeRead_blocked (s := s.noteCorrected k) (headBlocked_eq_true (s := s) hh hb)]
    rfl
  · exact exec_lookupReadDone_fault hd hp hq hr
  · exact search_of_found (by rw [he]; exact find_hasKey hfp hlen hpre)
  · rw [search_of_absent habsent, if_neg (by omega)]
  · rw [search_of_absent habsent, if_pos hs]

/-! ## The apply of the head -/

section head

variable (hl : s.index.lookups = q :: later) (hq : q.state = .read)
include hl hq

/-- R65: the READ head applies, unless the placement unit holds its apply. -/
theorem exec_lookupApply (hd : s.ctl.dev = .service) (hp : s.ctl.pinHeld = false) (hh : s.place.held ≠ some .apply) :
    exec (.lookupApply k) s = .next (s.noteCorrected k).applyHead := by
  have hs : s.inService = true := inService_iff.2 ⟨hd, hp⟩
  have hfree : (s.place.held != some .apply) = true := by simpa using hh
  simp only [exec, execLookupApply, hs, hl, hq, hfree, beq_self_eq_true, Bool.and_self, if_true]

theorem applyHead_miss (hr : q.result = some ⟨none, count⟩) : s.applyHead = s.applyMiss q count := by
  simp only [State.applyHead, hl, hq, hr]

theorem applyHead_lost (hr : q.result = some ⟨some (e, inSpill), count⟩)
    (hc : (s.container e.container).state = .lost) : s.applyHead = s.applyLost q e inSpill count := by
  simp only [State.applyHead, hl, hq, hr, hc]

/-- R66: the states whose entries make a DUP. -/
theorem applyHead_dup (hr : q.result = some ⟨some (e, inSpill), count⟩)
    (hc : (s.container e.container).state ∈ [.durable, .open_, .full]) :
    s.applyHead = s.applyDup q e inSpill (s.container e.container).state := by
  simp only [List.mem_cons, List.not_mem_nil, or_false] at hc
  rcases hc with hc | hc | hc <;> simp only [State.applyHead, hl, hq, hr, hc]

/-- R65, R68: the head that found nothing applies as a miss. -/
theorem exec_lookupApply_miss (hr : q.result = some ⟨none, count⟩) (hd : s.ctl.dev = .service)
    (hp : s.ctl.pinHeld = false) (hh : s.place.held ≠ some .apply) :
    exec (.lookupApply k) s = .next ((s.noteCorrected k).applyMiss q count) :=
  (exec_lookupApply hl hq hd hp hh).trans (by rw [applyHead_miss (s := s.noteCorrected k) hl hq hr])

end head

/-! ## The outcome handed on -/

/-- R61, R62, R69: the index unit once the head `q` has left the lookup queue, in which `later` stood behind it. -/
def popped (x : Index) (q : QLookup) (later : List QLookup) : Index :=
  { x with
    lookups := later.mapIdx (fun i x => if i < 16 ∧ x.state = .queued then { x with state := .pending } else x)
    inflight := x.inflight.filter (fun x => x != q.lk.bucket)
    starving := none }

theorem popLookup_eq (hl : s.index.lookups = q :: later) :
    s.popLookup q = { s with index := popped s.index q later } := by
  simp only [State.popLookup, hl, List.drop_one, List.tail_cons, promote_eq]
  rfl

/-- R65, R70: the head leaves the queue, its slot is as decided, and the batch and the mark follow. -/
theorem finishApply_popped (hl : s.index.lookups = q :: later) (v : Verdict) (dep : Option Nat) :
    State.AppliedTo
      { s with
        slots := (s.setSlot q.lk.slot ((s.slot q.lk.slot).decided q.lk.span v dep)).slots
        index := popped s.index q later }
      q.lk.slot (s.finishApply q v dep) := by
  have h := finishApply_appliedTo s q v dep
  rwa [popLookup_eq hl] at h

/-! ## DUP -/

/-- R58: a pinned count stays. -/
theorem dupRefs_eq (refs : Nat) : dupRefs refs = if refs = 65535 then 65535 else refs + 1 := by
  unfold dupRefs Config.pinned
  split
  · assumption
  · rfl

/-- R58, R66: the change of the entry's count is all that a DUP makes before it is handed on. -/
theorem applyDup_appliedTo (hl : s.index.lookups = q :: later) (st : ContState) :
    State.AppliedTo
      { s with
        slots := (s.setSlot q.lk.slot ((s.slot q.lk.slot).decided q.lk.span
          (verdictOf q .dup (some (e.container, e.offset, st)))
          (if st = .durable then none else some e.container))).slots
        index := popped (s.recounted e inSpill q.lk.bucket (dupRefs e.refs)).index q later }
      q.lk.slot (s.applyDup q e inSpill st) := by
  rw [State.applyDup, setRefs_eq]
  cases inSpill
  · exact finishApply_popped (s := s.recounted e false q.lk.bucket (dupRefs e.refs)) hl _ _
  · exact finishApply_popped (s := s.recounted e true q.lk.bucket (dupRefs e.refs)) hl _ _

/-- Settles O47: the DUP of `applyDup_appliedTo`. -/
theorem applyDecidesDup : Obligations.ApplyDecidesDup := by
  intro k s q later e inSpill count hd hp hl hq hr hh hc st refs v dep
  refine ⟨_, exec_lookupApply hl hq hd hp hh, ?_⟩
  rw [applyHead_dup (s := s.noteCorrected k) hl hq hr hc]
  have h := applyDup_appliedTo (s := s.noteCorrected k) (e := e) (inSpill := inSpill) hl st
  rw [dupRefs_eq] at h
  cases inSpill <;> exact h

/-! ## NEW and PASS -/

/-- R56, R59: the index unit once the head has left the queue and the entry of its chunk has joined the bucket or the
spill table. -/
def inserted (s : State) (q : QLookup) (later : List QLookup) (count : Nat) (e : IndexEntry) : Index :=
  if count < 8 then
    { popped s.index q later with
      entryCount := s.index.entryCount + 1
      buckets := (s.setBucket q.lk.bucket { s.bucket q.lk.bucket with
        entries := (s.bucket q.lk.bucket).entries ++ [e] }).index.buckets }
  else
    { popped s.index q later with
      entryCount := s.index.entryCount + 1
      spillCount := s.index.spillCount + 1
      buckets := (s.setBucket q.lk.bucket { s.bucket q.lk.bucket with
        spill := (s.bucket q.lk.bucket).spill + 1 }).index.buckets
      spill := (s.setSpill e.fp e.length (some ⟨e, q.lk.bucket⟩)).index.spill }

theorem lookups_insertEntry : (s.insertEntry e count).index.lookups = s.index.lookups := by
  unfold State.insertEntry
  split <;> rfl

/-- The head leaves the lookup queue after its chunk's entry has been inserted. -/
theorem popped_insertEntry (hb : q.lk.bucket = bucketOf e.fp) :
    popped (s.insertEntry e count).index q later = inserted s q later count e := by
  unfold State.insertEntry inserted
  rw [hb]
  by_cases hc : count < 8
  · rw [if_pos hc, if_pos (show count < Config.bucketMax from hc)]
    rfl
  · rw [if_neg hc, if_neg (show ¬ count < Config.bucketMax from hc)]
    rfl

/-- R82, R68: the container once the chunk of `len` bytes has been placed in it. -/
def filledBy (v : Container) (len : Nat) : Container :=
  { v with fill := v.fill + len, entries := v.entries + 1, live := v.live + len }

/-- R82: the state once a chunk of `len` bytes has been placed in the container, the index unit being `x`. -/
def placedIn (s : State) (c len : Nat) (x : Index) : State :=
  { s.setContainer c (filledBy (s.container c) len) with index := x }

theorem placedIn_index (len : Nat) (x : Index) : (placedIn s c len x).index = x := rfl

/-- The placement and the insertion write different parts of the state. -/
theorem setContainer_insertEntry (len : Nat) :
    (s.setContainer c (filledBy (s.container c) len)).insertEntry e count =
      placedIn s c len (s.insertEntry e count).index := by
  unfold State.insertEntry placedIn
  split <;> rfl

theorem applyNew_placedIn : s.applyNew q count c =
    (placedIn s c q.lk.length
      (s.insertEntry ⟨q.lk.fp, q.lk.length, c, (s.container c).fill, 1⟩ count).index).finishApply q
      (verdictOf q .new (some (c, (s.container c).fill, .open_))) (some c) := by
  rw [← setContainer_insertEntry]
  rfl

/-- R68: the chunk is placed at the container's fill and its entry inserted, before the NEW is handed on. -/
theorem applyNew_appliedTo (hl : s.index.lookups = q :: later) (hb : q.lk.bucket = bucketOf q.lk.fp) :
    State.AppliedTo
      { s with
        place := (s.setContainer c (filledBy (s.container c) q.lk.length)).place
        index := inserted s q later count ⟨q.lk.fp, q.lk.length, c, (s.container c).fill, 1⟩
        slots := (s.setSlot q.lk.slot ((s.slot q.lk.slot).decided q.lk.span
          (verdictOf q .new (some (c, (s.container c).fill, .open_))) (some c))).slots }
      q.lk.slot (s.applyNew q count c) := by
  rw [applyNew_placedIn]
  have h := finishApply_popped (s := placedIn s c q.lk.length
    (s.insertEntry ⟨q.lk.fp, q.lk.length, c, (s.container c).fill, 1⟩ count).index)
    (lookups_insertEntry.trans hl) (verdictOf q .new (some (c, (s.container c).fill, .open_))) (some c)
  rw [placedIn_index, popped_insertEntry (by exact hb)] at h
  exact h

/-! ## The placement of a chunk -/

/-- R96: an apply that needs placement waits while the placement unit holds another event. -/
theorem applyMiss_waits (hr : s.indexRoom count = true) (hh : s.place.held ≠ none) : s.applyMiss q count = s := by
  have hs : s.place.held.isSome = true := Option.isSome_iff_ne_none.2 hh
  simp only [State.applyMiss, hr, hs, if_true]

theorem applyMiss_places (hr : s.indexRoom count = true) (hh : s.place.held = none) :
    s.applyMiss q count = s.placeChunk q count := by
  simp only [State.applyMiss, hr, hh, Option.isSome_none, Bool.false_eq_true, if_true, if_false]

section place

variable (hg : (s.slot q.lk.slot).group = some g)
include hg

theorem placeChunk_fits (ho : s.openPlace g = some c)
    (hfit : (s.container c).fill + q.lk.length ≤ (s.container c).capacity) :
    s.placeChunk q count = s.applyNew q count c := by
  simp only [State.placeChunk, hg, Option.getD_some, ho, hfit, if_true]

theorem placeChunk_opens (ho : s.openPlace g = none) : s.placeChunk q count = s.openAndPlace q count g := by
  simp only [State.placeChunk, hg, Option.getD_some, ho]

section full

variable (ho : s.openPlace g = some c) (hfull : (s.container c).capacity < (s.container c).fill + q.lk.length)
include ho hfull

theorem placeChunk_closes (hn : s.hasRoom = true) :
    s.placeChunk q count = (s.closeToFull c .space).openAndPlace q count g := by
  simp only [State.placeChunk, hg, Option.getD_some, ho, Nat.not_le.2 hfull, hn, if_true, if_false]

theorem placeChunk_held (hn : s.hasRoom = false) : s.placeChunk q count = s.holdPlace .apply := by
  simp only [State.placeChunk, hg, Option.getD_some, ho, Nat.not_le.2 hfull, hn, Bool.false_eq_true, if_false]

end full

end place

theorem openAndPlace_next {others : List Nat} (hf : s.place.freeList = c :: others) :
    s.openAndPlace q count g = (s.openContainer g c).applyNew q count c := by
  simp only [State.openAndPlace, hf]

theorem openAndPlace_none (hf : s.place.freeList = []) : s.openAndPlace q count g = s.block q g := by
  simp only [State.openAndPlace, hf]

/-- R83: the container as it is opened. -/
theorem container_openContainer :
    (s.openContainer g c).container c = ⟨.open_, some g, s.ctl.settings.capacityMib * 1048576, 0, 0, 0⟩ :=
  (State.container_setContainer s c ⟨.open_, some g, s.ctl.settings.capacityMib * 1048576, 0, 0, 0⟩ c).trans
    (if_pos rfl)

/-- R83, R82: the placement unit once a container has been opened and filled by the chunk that asked for it. -/
theorem place_opened {others : List Nat} (hf : s.place.freeList = c :: others) (len : Nat) :
    ((s.openContainer g c).setContainer c (filledBy ((s.openContainer g c).container c) len)).place =
      { (((s.setContainer c ⟨.open_, some g, s.ctl.settings.capacityMib * 1048576, len, 1, len⟩).setOpenPlace g
        (some c))).place with freeList := others } := by
  rw [container_openContainer]
  simp only [State.openContainer, State.setContainer, State.setOpenPlace, filledBy, Nat.zero_add, hf, List.drop_one,
    List.tail_cons]
  rw [tableSet_tableSet _ _ _ _ _ (Container.ne_free (by simp))]

/-- Settles O48, by the room in the index and by the place of the chunk's group. -/
theorem applyDecidesNewOrPass : Obligations.ApplyDecidesNewOrPass := by
  intro k s q later count g hd hp hl hq hr hb hg n bk popped inserted decided new
  have hx (hh : s.place.held ≠ some .apply) := exec_lookupApply_miss (k := k) hl hq hr hd hp hh
  refine ⟨fun hh hroom => ?_, fun hh hc hsp => ⟨_, hx hh, ?_⟩⟩
  · have hplaced := applyMiss_places (s := s.noteCorrected k) (q := q) (StartUp.indexRoom_iff.2 hroom) hh
    refine ⟨fun c ho hfit => ⟨_, hx (by simp [hh]), ?_⟩, fun c others ho hf => ⟨_, hx (by simp [hh]), ?_⟩⟩
    · rw [hplaced, placeChunk_fits (s := s.noteCorrected k) hg ho hfit]
      exact applyNew_appliedTo (s := s.noteCorrected k) hl hb
    · rw [hplaced, placeChunk_opens (s := s.noteCorrected k) hg ho, openAndPlace_next (s := s.noteCorrected k) hf]
      have h := applyNew_appliedTo (s := (s.noteCorrected k).openContainer g c) (c := c) (count := count) hl hb
      rw [place_opened (s := s.noteCorrected k) hf, container_openContainer] at h
      exact h
  · rw [MarkReports.applyMiss_pass (s := s.noteCorrected k) hc hsp]
    exact finishApply_popped (s := s.noteCorrected k) hl _ _

/-! ## An entry of a LOST container -/

/-- R79, R94: the removal of one of several entries makes no notice. -/
theorem removalNotice_of_more (h : 1 < (s.container c).entries) : s.removalNotice c = false := by
  have : ¬ (s.container c).entries - 1 = 0 := by omega
  simp [State.removalNotice, this]

theorem removalNotice_of_last (hc : (s.container c).state = .lost) (h : (s.container c).entries = 1) :
    s.removalNotice c = true := by simp [State.removalNotice, hc, h]

theorem applyLost_waits (hh : s.place.held ≠ none) : s.applyLost q e inSpill count = s :=
  if_pos (Option.isSome_iff_ne_none.2 hh)

section lost

variable (hh : s.place.held = none)
include hh

theorem applyLost_held (hm : s.removalNotice e.container = true) (hn : s.hasRoom = false) :
    s.applyLost q e inSpill count = s.holdPlace .apply := by
  simp only [State.applyLost, hh, hm, hn, Option.isSome_none, Bool.false_eq_true, Bool.not_false, Bool.and_self,
    if_false, if_true]

/-- R67: the lookup as it goes on as a miss. -/
def missed (q : QLookup) (inSpill : Bool) (count : Nat) : QLookup :=
  { q with result := some ⟨none, if inSpill = true then count else count - 1⟩ }

/-- R67: the entry is removed, and what it leaves is the state of a head that found nothing. -/
theorem applyLost_removes
    (hroom : s.removalNotice e.container = true → s.hasRoom = true) :
    s.applyLost q e inSpill count =
      ((s.removeEntry e inSpill q.lk.bucket).setHeadResult q
        ⟨none, if inSpill = true then count else count - 1⟩).applyMiss (missed q inSpill count)
        (if inSpill = true then count else count - 1) := by
  have hno : (s.removalNotice e.container && !s.hasRoom) = false := by
    cases hm : s.removalNotice e.container with
    | false => rfl
    | true => rw [hroom hm]; rfl
  simp only [State.applyLost, hh, hno, Option.isSome_none, Bool.false_eq_true, if_false, missed]

end lost

/-- R79: the accounting of the removal of one of several entries. -/
theorem removeEntry_of_more {b : Nat} (h : 1 < (s.container e.container).entries) :
    s.removeEntry e inSpill b = { s with
      index := (s.entryGone e inSpill b).index
      place := (s.setContainer e.container { s.container e.container with
        entries := (s.container e.container).entries - 1
        live := (s.container e.container).live - e.length }).place } := by
  rw [State.removeEntry, dropEntry_eq, account_of_more (s.entryGone e inSpill b) _ _ h]
  rfl

/-- R100: the walker once a LOST container has been freed, of the `lost` that there were. -/
def restedWalker (s : State) (lost : Nat) : Walker :=
  { s.walker with
    sweeping :=
      match s.index.other with
      | some (.sweep _) => s.walker.sweeping
      | _ => if lost ≤ 1 then false else s.walker.sweeping }

theorem restWalker_rested {lost : Nat} (h : s.place.nLost = lost - 1) :
    s.restWalker = { s with walker := restedWalker s lost } := by
  have hrest : (if s.place.nLost = 0 then { s with walker := { s.walker with sweeping := false } } else s) =
      { s with walker := { s.walker with sweeping := if lost ≤ 1 then false else s.walker.sweeping } } := by
    rw [h]
    by_cases hl : lost ≤ 1
    · rw [if_pos (by omega), if_pos hl]
    · rw [if_neg (by omega), if_neg hl]
  unfold State.restWalker restedWalker
  cases s.index.other with
  | none => exact hrest
  | some op =>
    cases op with
    | sweep b => rfl
    | release b => exact hrest
    | seed b => exact hrest

/-- R94: a LOST container is freed. -/
theorem freeLost_eq : s.freeLost c = { s with
    index := { s.index with lookups := unblockHead s.index.lookups }
    place := { (s.setContainer c ⟨.free, none, 0, 0, 0, 0⟩).place with
      freeList := s.place.freeList ++ [c], nLost := s.place.nLost - 1 }
    walker := restedWalker s s.place.nLost
    link := s.link.noticed (.containerFreed c ((s.container c).group.getD 0)) } := by
  rw [State.freeLost, restWalker_rested (lost := s.place.nLost) rfl]
  rfl

/-- R94: of a container that is freed only the group shows, in the notice. -/
theorem freeLost_setContainer {v : Container} (hv : v.state ≠ .free) (hg : v.group = (s.container c).group) :
    (s.setContainer c v).freeLost c = s.freeLost c := by
  simp only [freeLost_eq, State.container_setContainer, if_true, hg]
  rw [setContainer_setContainer _ _ _ (Container.ne_free hv)]
  rfl

/-- R79, R94: a LOST container whose last entry goes is freed. -/
theorem account_of_last (len : Nat) (hc : (s.container c).state = .lost) (h : (s.container c).entries = 1) :
    s.account c len = s.freeLost c := by
  simp only [State.account, h, Nat.sub_self, if_true, hc]
  exact freeLost_setContainer (by simp) rfl

/-- R67, R94: the removal of the last entry of a LOST container. -/
theorem removeEntry_of_last {b : Nat} (hc : (s.container e.container).state = .lost)
    (h : (s.container e.container).entries = 1) :
    s.removeEntry e inSpill b = { s with
      index := { (s.entryGone e inSpill b).index with lookups := unblockHead s.index.lookups }
      place := { (s.setContainer e.container ⟨.free, none, 0, 0, 0, 0⟩).place with
        freeList := s.place.freeList ++ [e.container], nLost := s.place.nLost - 1 }
      walker := restedWalker s s.place.nLost
      link := s.link.noticed (.containerFreed e.container ((s.container e.container).group.getD 0)) } := by
  rw [State.removeEntry, dropEntry_eq, account_of_last (s := s.entryGone e inSpill b) _ hc h, freeLost_eq]
  rfl

/-- R84: closing to FULL leaves the group without an OPEN container. -/
theorem openPlace_closed (s : State) (c g : Nat) (v : Container) :
    tableGet none ((s.setContainer c v).setOpenPlace g none).place.openPlaces g = none :=
  (State.openPlace_setOpenPlace (s.setContainer c v) g none g).trans (if_pos rfl)

/-- R67: the head holds another result. -/
theorem setHeadResult_eq {q' : QLookup} (hl : s.index.lookups = q' :: later) (r : ReadResult) :
    s.setHeadResult q r =
      { s with index := { s.index with lookups := { q with result := some r } :: later } } := by
  simp only [State.setHeadResult, hl, List.drop_one, List.tail_cons]

/-- Settles O49: each removal, and the close, leaves a state in which the apply of the head is the one that is still to
be made. -/
theorem applyClearsTheWayFirst : Obligations.ApplyClearsTheWayFirst := by
  intro k s q later hd hp hl hq held
  have hx (hh : s.place.held ≠ some .apply) : exec (.lookupApply k) s = .next (s.noteCorrected k).applyHead :=
    exec_lookupApply hl hq hd hp hh
  constructor
  · intro e inSpill count hr hc v less dropped index
    have hlost : (s.noteCorrected k).applyHead = (s.noteCorrected k).applyLost q e inSpill count :=
      applyHead_lost (s := s.noteCorrected k) hl hq hr hc
    refine ⟨fun h hh hne => ?_, fun hh hmore => ?_, fun hh hone hn => ?_, fun hh hone hn => ?_⟩
    · rw [hx (by simpa [hh] using hne), hlost, applyLost_waits (s := s.noteCorrected k) (by simp [hh])]
    · have hno := removalNotice_of_more (s := s.noteCorrected k) hmore
      rw [hx (by simp [hh]), hlost, applyLost_removes (s := s.noteCorrected k) hh (by simp [hno]),
        removeEntry_of_more (s := s.noteCorrected k) hmore, setHeadResult_eq (later := later) (q' := q) (by exact hl)]
      symm
      exact exec_lookupApply_miss (q := missed q inSpill count) rfl hq rfl hd hp (by simp [hh])
    · rw [hx (by simp [hh]), hlost,
        applyLost_removes (s := s.noteCorrected k) hh fun _ => ContainerPlacement.hasRoom_iff.2 hn,
        removeEntry_of_last (s := s.noteCorrected k) hc hone,
        setHeadResult_eq (later := later) (congrArg unblockHead hl)]
      symm
      exact exec_lookupApply_miss (q := missed q inSpill count) rfl hq rfl hd hp (by simp [hh])
    · have hnotice := removalNotice_of_last (s := s.noteCorrected k) hc hone
      rw [hx (by simp [hh]), hlost,
        applyLost_held (s := s.noteCorrected k) hh hnotice (ContainerPlacement.hasRoom_eq_false.2 hn)]
      rfl
  · intro count g c hr hroom hg ho hcg hfull
    have hmiss (hh : s.place.held ≠ some .apply) := exec_lookupApply_miss (k := k) hl hq hr hd hp hh
    have hindex : (s.noteCorrected k).indexRoom count = true := StartUp.indexRoom_iff.2 hroom
    refine ⟨fun h hh hne => ?_, fun hh hn => ?_, fun hh hn => ?_⟩
    · rw [hmiss (by simpa [hh] using hne), applyMiss_waits (s := s.noteCorrected k) hindex (by simp [hh])]
    · rw [hmiss (by simp [hh]), applyMiss_places (s := s.noteCorrected k) hindex hh,
        placeChunk_closes (s := s.noteCorrected k) hg ho hfull (ContainerPlacement.hasRoom_iff.2 hn),
        closeToFull_eq (s := s.noteCorrected k) c g .space hcg]
      symm
      refine Eq.trans (exec_lookupApply_miss hl hq hr hd hp (by simp [hh])) (congrArg _ ?_)
      rw [applyMiss_places (by exact hindex) (by exact hh),
        placeChunk_opens (by exact hg) (by exact openPlace_closed s c g _)]
      rfl
    · rw [hmiss (by simp [hh]), applyMiss_places (s := s.noteCorrected k) hindex hh,
        placeChunk_held (s := s.noteCorrected k) hg ho hfull (ContainerPlacement.hasRoom_eq_false.2 hn)]
      rfl

/-! ## O51: no container for the head -/

/-- R85: the head that finds no container, with what it and the lookups behind it give up. -/
theorem block_begun (hl : s.index.lookups = q :: later) (hs : s.index.starving = none) :
    s.block q g =
      let x := { s with index := { s.index with
        lookups := { q with state := .blocked, result := none } :: later.map giveUp
        inflight := s.index.inflight.filter (fun b => !(givenUp q later).contains b)
        starving := some g } }
      if s.hasRoom then x.enter (s.starvedNotice q) else x.holdPlace .starved := by
  simp only [State.block, hl, hs, List.drop_one, List.tail_cons, Option.isNone_none, if_true]
  rfl

/-- R85: an episode that lasts makes no further notice. -/
theorem block_continued (hl : s.index.lookups = q :: later) (hs : s.index.starving ≠ none) :
    s.block q g = { s with index := { s.index with
        lookups := { q with state := .blocked, result := none } :: later.map giveUp
        inflight := s.index.inflight.filter (fun b => !(givenUp q later).contains b)
        starving := some g } } := by
  have hb : s.index.starving.isNone = false := Option.isNone_eq_false_iff.2 (Option.isSome_iff_ne_none.2 hs)
  simp only [State.block, hl, hb, List.drop_one, List.tail_cons, Bool.false_eq_true, if_false]

/-- Settles O51, by the order of the placement: no room for the chunk in a container of its group, none to open, and
then the episode that begins, waits with its notice, or goes on. -/
theorem noContainerBlocksTheHead : Obligations.NoContainerBlocksTheHead := by
  intro k s q later count g hd hp hl hq hr hroom hh hg ho hf blocked
  have hblock : exec (.lookupApply k) s = .next ((s.noteCorrected k).block q g) := by
    rw [exec_lookupApply_miss hl hq hr hd hp (by simp [hh]),
      applyMiss_places (s := s.noteCorrected k) (StartUp.indexRoom_iff.2 (.inl hroom)) hh,
      placeChunk_opens (s := s.noteCorrected k) hg ho, openAndPlace_none (s := s.noteCorrected k) hf]
  refine ⟨fun hs hn => ?_, fun hs hn => ?_, fun hs => ?_⟩
  · have hn : (s.noteCorrected k).hasRoom = true := ContainerPlacement.hasRoom_iff.2 hn
    have hgroup : ((s.noteCorrected k).slot q.lk.slot).group.getD 0 = g := by
      rw [show (s.noteCorrected k).slot q.lk.slot = s.slot q.lk.slot from rfl, hg, Option.getD_some]
    rw [hblock, block_begun (s := s.noteCorrected k) hl hs, if_pos hn, State.starvedNotice, hgroup]
    rfl
  · have hn : (s.noteCorrected k).hasRoom = false := ContainerPlacement.hasRoom_eq_false.2 hn
    rw [hblock, block_begun (s := s.noteCorrected k) hl hs, hn]
    rfl
  · rw [hblock, block_continued (s := s.noteCorrected k) hl hs]
    rfl

end Sys2Proof.FingerprintIndex

/-! PROOFS. The index-memory port in order (R60 to R62, R71): the in-flight set holds the buckets of the lookups that
fly and of the one other operation. `Flight` says so of a lookup queue, an in-flight set and an operation, and has a
rule for each way they change: the queue alone, buckets that leave, and one that enters. `Orderly` adds what the device
states allow. Most operations lie beside the port (`Beside`): they leave its part of the state as it is, or unblock the
head. -/

namespace Sys2Proof.PortOrder

open Machine BranchStreams

/-! ## The buckets in flight -/

section lists

variable {q q' : QLookup} {ls ls' pre post : List QLookup} {i b : Nat}

/-- R62: the buckets the lookups keep in flight. -/
def flown (ls : List QLookup) : List Nat := (ls.filter QLookup.flies).map (fun q => q.lk.bucket)

theorem flown_append (ls ls' : List QLookup) : flown (ls ++ ls') = flown ls ++ flown ls' := by
  rw [flown, List.filter_append, List.map_append]
  rfl

theorem flown_cons_of_flies (h : q.flies = true) (ls : List QLookup) : flown (q :: ls) = q.lk.bucket :: flown ls := by
  rw [flown, List.filter_cons_of_pos h]
  rfl

theorem flown_cons_of_stays (h : q.flies = false) (ls : List QLookup) : flown (q :: ls) = flown ls := by
  rw [flown, List.filter_cons_of_neg (by simp [h])]
  rfl

theorem flown_cons_congr (hf : q'.flies = q.flies) (hb : q'.lk.bucket = q.lk.bucket) (h : flown ls' = flown ls) :
    flown (q' :: ls') = flown (q :: ls) := by
  cases hq : q.flies
  · rw [flown_cons_of_stays hq, flown_cons_of_stays (hf.trans hq), h]
  · rw [flown_cons_of_flies hq, flown_cons_of_flies (hf.trans hq), h, hb]

theorem flown_map {f : QLookup → QLookup} (hf : ∀ q, (f q).flies = q.flies) (hb : ∀ q, (f q).lk.bucket = q.lk.bucket)
    (ls : List QLookup) : flown (ls.map f) = flown ls := by
  induction ls with
  | nil => rfl
  | cons q ls ih => exact flown_cons_congr (hf q) (hb q) ih

theorem flies_of_read (h : q.state = .read) : q.flies = true := by simp [QLookup.flies, h]

theorem flies_of_reading (h : q.state = .reading) : q.flies = true := by simp [QLookup.flies, h]

theorem stays_of_queued (h : q.state = .queued) : q.flies = false := by simp [QLookup.flies, h]

theorem stays_of_pending (h : q.state = .pending) : q.flies = false := by simp [QLookup.flies, h]

theorem stays_of_blocked (h : q.state = .blocked) : q.flies = false := by simp [QLookup.flies, h]

theorem flown_of_queued (h : ∀ q ∈ ls, q.state = .queued) : flown ls = [] := by
  induction ls with
  | nil => rfl
  | cons q ls ih =>
    rw [flown_cons_of_stays (stays_of_queued (h q List.mem_cons_self)), ih fun x hx => h x (List.mem_cons_of_mem _ hx)]

theorem length_flown_le (ls : List QLookup) : (flown ls).length ≤ ls.length := by
  rw [flown, List.length_map]
  exact List.length_filter_le _ _

/-! ### One lookup of the queue changes -/

theorem exists_set_eq (h : ls[i]? = some q) :
    ∃ pre post, ls = pre ++ q :: post ∧ ∀ q', ls.set i q' = pre ++ q' :: post := by
  obtain ⟨hi, rfl⟩ := List.getElem?_eq_some_iff.1 h
  refine ⟨ls.take i, ls.drop (i + 1), ?_, fun q' => List.set_eq_take_append_cons_drop.trans (if_pos hi)⟩
  rw [← List.drop_eq_getElem_cons hi, List.take_append_drop]

/-- A lookup goes on flying, or goes on staying. -/
theorem flown_set (h : ls[i]? = some q) (hf : q'.flies = q.flies) (hb : q'.lk.bucket = q.lk.bucket) :
    flown (ls.set i q') = flown ls := by
  obtain ⟨pre, post, rfl, hset⟩ := exists_set_eq h
  rw [hset, flown_append, flown_append, flown_cons_congr hf hb rfl]

/-- R63: a lookup begins to fly. -/
theorem flown_set_flies (h : ls[i]? = some q) (hq : q.flies = false) (hq' : q'.flies = true)
    (hb : q'.lk.bucket = q.lk.bucket) : (flown (ls.set i q')).Perm (q.lk.bucket :: flown ls) := by
  obtain ⟨pre, post, rfl, hset⟩ := exists_set_eq h
  rw [hset, flown_append, flown_append, flown_cons_of_flies hq', flown_cons_of_stays hq, hb]
  exact List.perm_middle

/-- R69: a lookup that flew gives up its bucket. -/
theorem flown_set_stays (h : ls[i]? = some q) (hq : q.flies = true) (hq' : q'.flies = false) :
    (flown ls).Perm (q.lk.bucket :: flown (ls.set i q')) := by
  obtain ⟨pre, post, rfl, hset⟩ := exists_set_eq h
  rw [hset, flown_append, flown_append, flown_cons_of_flies hq, flown_cons_of_stays hq']
  exact List.perm_middle

/-! ### The whole queue changes -/

theorem flown_promote (ls : List QLookup) : flown (promote ls) = flown ls := by
  rw [promote, flown_append, flown_map, ← flown_append, List.take_append_drop]
  · intro q
    split
    · next h => rw [stays_of_queued h, stays_of_pending rfl]
    · rfl
  · intro q
    split <;> rfl

theorem flown_unblockHead (ls : List QLookup) : flown (unblockHead ls) = flown ls := by
  cases ls with
  | nil => rfl
  | cons q ls =>
    refine flown_cons_congr ?_ ?_ rfl
    · split
      · next h => rw [stays_of_blocked h, stays_of_pending rfl]
      · rfl
    · split <;> rfl

theorem flown_join (h : q.flies = false) (ls : List QLookup) : flown (ls ++ [q]) = flown ls := by
  rw [flown_append, flown_cons_of_stays h]
  exact List.append_nil _

/-- R69: what the lookups behind a head that becomes BLOCKED give up, and what they keep. -/
theorem flown_giveUp (ls : List QLookup) :
    (flown ls).Perm ((ls.filter (fun x => x.state == .read)).map (fun x => x.lk.bucket) ++ flown (ls.map giveUp)) := by
  induction ls with
  | nil => exact .nil
  | cons q ls ih =>
    by_cases hq : q.state = .read
    · have hstays : (giveUp q).flies = false := by rw [giveUp, if_pos hq, stays_of_pending rfl]
      rw [flown_cons_of_flies (flies_of_read hq), List.filter_cons_of_pos (by simp [hq]), List.map_cons, List.map_cons,
        flown_cons_of_stays hstays]
      exact ih.cons _
    · have hsame : giveUp q = q := if_neg hq
      rw [List.filter_cons_of_neg (by simp [hq]), List.map_cons, hsame]
      cases hf : q.flies
      · rw [flown_cons_of_stays hf, flown_cons_of_stays hf]
        exact ih
      · rw [flown_cons_of_flies hf, flown_cons_of_flies hf]
        exact (ih.cons _).trans List.perm_middle.symm

/-! ### The window -/

/-- R61: every lookup beyond the window is QUEUED. -/
def Windowed (ls : List QLookup) : Prop := ∀ q ∈ ls.drop 16, q.state = .queued

theorem windowed_iff : Windowed ls ↔ ∀ i q, ls[i]? = some q → 16 ≤ i → q.state = .queued := by
  constructor
  · intro h i q hi hle
    refine h q (List.mem_of_getElem? (i := i - 16) ?_)
    rw [List.getElem?_drop, Nat.add_sub_cancel' hle, hi]
  · intro h q hq
    obtain ⟨i, hi⟩ := List.mem_iff_getElem?.1 hq
    rw [List.getElem?_drop] at hi
    exact h _ q hi (Nat.le_add_right 16 i)

theorem windowed_nil : Windowed [] := nofun

theorem Windowed.of_drop (h : Windowed ls) (hd : ls'.drop 16 = ls.drop 16) : Windowed ls' :=
  fun q hq => h q (hd ▸ hq)

theorem Windowed.tail (h : Windowed (q :: ls)) : ∀ x ∈ ls.drop 15, x.state = .queued := h

/-- Behind the head of a windowed queue every lookup beyond the window is QUEUED all the more. -/
theorem Windowed.behind (h : Windowed (q :: ls)) : Windowed ls := fun x hx =>
  h.tail x (List.mem_of_mem_drop (i := 1) (by rwa [List.drop_drop]))

theorem Windowed.set (h : Windowed ls) (hi : ls[i]? = some q) (hq : q.state ≠ .queued) (q' : QLookup) :
    Windowed (ls.set i q') :=
  h.of_drop (List.drop_set_of_lt (Nat.lt_of_not_le fun hle => hq (windowed_iff.1 h i q hi hle)))

theorem Windowed.unblockHead (h : Windowed ls) : Windowed (unblockHead ls) := by
  cases ls with
  | nil => exact windowed_nil
  | cons q ls => exact h.of_drop rfl

/-- R61: the lookups that come within the window are those that become PENDING. -/
theorem Windowed.promote (h : Windowed ls) : Windowed (promote ls) := by
  intro q hq
  rw [Machine.promote, List.drop_append] at hq
  obtain hq | hq := List.mem_append.1 hq
  · rw [List.drop_eq_nil_of_le (by simp [Config.windowMax])] at hq
    cases hq
  · exact h q (List.mem_of_mem_drop hq)

theorem Windowed.block (h : Windowed (q :: ls)) (q' : QLookup) : Windowed (q' :: ls.map giveUp) := by
  intro x hx
  rw [List.drop_succ_cons, ← List.map_drop] at hx
  obtain ⟨y, hy, rfl⟩ := List.mem_map.1 hx
  have hqueued := h.tail y hy
  rw [giveUp, if_neg (by simp [hqueued]), hqueued]

/-- R61: a lookup that joins beyond the window is QUEUED. -/
theorem Windowed.join (h : Windowed ls) (hq : 16 ≤ ls.length → q.state = .queued) : Windowed (ls ++ [q]) := by
  intro x hx
  by_cases hle : 16 ≤ ls.length
  · rw [List.drop_append_of_le_length hle] at hx
    obtain hx | hx := List.mem_append.1 hx
    · exact h x hx
    · rw [List.mem_singleton.1 hx, hq hle]
  · rw [List.drop_eq_nil_of_le (by simp; omega)] at hx
    cases hx

end lists

/-! ## The in-flight set -/

/-- R71: the bucket of the other operation, if one is in progress. -/
def opBuckets (op : Option OtherOp) : List Nat := op.toList.map OtherOp.bucket

/-- R62, R61: the in-flight set is the buckets of the lookups that fly and of the other operation, each once. -/
structure Flight (ls : List QLookup) (inflight : List Nat) (op : Option OtherOp) : Prop where
  exact : inflight.Perm (flown ls ++ opBuckets op)
  once : inflight.Nodup
  window : Windowed ls

section flight

variable {q : QLookup} {ls ls' : List QLookup} {f gone : List Nat} {op op' : Option OtherOp} {b : Nat}

theorem flight_nil : Flight [] [] none := ⟨.nil, List.nodup_nil, windowed_nil⟩

/-- R61: 16 lookups fly at most, and one operation. -/
theorem Flight.most (h : Flight ls f op) : f.length ≤ 17 := by
  have hfar : flown (ls.drop 16) = [] := flown_of_queued h.window
  have hnear : (flown (ls.take 16)).length ≤ 16 := (length_flown_le _).trans (List.length_take_le 16 ls)
  have hop : (opBuckets op).length ≤ 1 := by cases op <;> simp [opBuckets]
  rw [h.exact.length_eq, ← List.take_append_drop 16 ls, flown_append, hfar, List.append_nil, List.length_append]
  omega

/-- The queue changes, and no bucket enters or leaves. -/
theorem Flight.keeps (h : Flight ls f op) (hl : flown ls' = flown ls) (hw : Windowed ls') : Flight ls' f op :=
  ⟨hl ▸ h.exact, h.once, hw⟩

/-- Those buckets leave. -/
theorem Flight.leaves {keep : Nat → Bool} (h : Flight ls f op) (hkeep : ∀ b, keep b = true ↔ b ∉ gone)
    (hl : (flown ls ++ opBuckets op).Perm (gone ++ (flown ls' ++ opBuckets op'))) (hw : Windowed ls') :
    Flight ls' (f.filter keep) op' := by
  have hparts := h.exact.trans hl
  obtain ⟨-, -, hdisjoint⟩ := List.nodup_append.1 (hparts.nodup_iff.1 h.once)
  refine ⟨?_, h.once.filter _, hw⟩
  have hgone : gone.filter keep = [] := List.filter_eq_nil_iff.2 fun b hb hk => (hkeep b).1 hk hb
  have hrest : (flown ls' ++ opBuckets op').filter keep = flown ls' ++ opBuckets op' :=
    List.filter_eq_self.2 fun b hb => (hkeep b).2 fun hg => hdisjoint b hg b hb rfl
  have hfiltered := hparts.filter keep
  rwa [List.filter_append, hgone, hrest, List.nil_append] at hfiltered

/-- A bucket leaves. -/
theorem Flight.leave (h : Flight ls f op)
    (hl : (flown ls ++ opBuckets op).Perm (b :: (flown ls' ++ opBuckets op'))) (hw : Windowed ls') :
    Flight ls' (f.filter (fun x => x != b)) op' := h.leaves (gone := [b]) (by simp) hl hw

/-- A bucket enters. -/
theorem Flight.enter (h : Flight ls f op) (hb : b ∉ f)
    (hl : (flown ls' ++ opBuckets op').Perm (b :: (flown ls ++ opBuckets op))) (hw : Windowed ls') :
    Flight ls' (f ++ [b]) op' := by
  refine ⟨?_, ?_, hw⟩
  · exact (List.perm_append_singleton b f).trans ((h.exact.cons b).trans hl.symm)
  · exact (List.perm_append_singleton b f).nodup_iff.2 (List.nodup_cons.2 ⟨hb, h.once⟩)

/-- R71: an operation begins. -/
theorem Flight.opBegins (h : Flight ls f none) (x : OtherOp) (hb : x.bucket ∉ f) :
    Flight ls (f ++ [x.bucket]) (some x) :=
  h.enter hb (by simp [opBuckets]) h.window

/-- R71: an operation ends. -/
theorem Flight.opEnds {x : OtherOp} (h : Flight ls f (some x)) : Flight ls (f.filter (fun b => b != x.bucket)) none :=
  h.leave (by simp [opBuckets]) h.window

theorem Flight.inflight_eq_nil (h : Flight [] f none) : f = [] := h.exact.eq_nil

end flight

/-! ## The part of the state that keeps the order -/

/-- What `State.PortInOrder` speaks of. -/
structure Port where
  dev : DevState
  seedWork : Option SeedWork
  beginWork : Option Nat
  lookups : List QLookup
  inflight : List Nat
  other : Option OtherOp

/-- That part of the state: an operation that writes none of it keeps it by definition. -/
def portOf (s : State) : Port :=
  ⟨s.ctl.dev, s.ctl.seedWork, s.ctl.beginWork, s.index.lookups, s.index.inflight, s.index.other⟩

/-- `State.PortInOrder` of that part. -/
structure Port.InOrder (p : Port) : Prop where
  flight : Flight p.lookups p.inflight p.other
  starting : p.dev = .starting → p.lookups = [] ∧ p.other = none
  restore : p.dev = .restore → p.lookups = [] ∧ ∀ op, p.other = some op → p.seedWork ≠ none ∧ ∃ b, op = .seed b
  service : p.dev = .service → ∀ b, p.other ≠ some (.seed b)
  alone : p.beginWork ≠ none → p.seedWork = none

/-- `State.PortInOrder`, under a name that does not unfold while an operation is matched with its rule. -/
def Orderly (s : State) : Prop := (portOf s).InOrder

variable {o s t : State} {q : QLookup} {r : Request}

theorem orderly_iff : Orderly s ↔ s.PortInOrder := by
  constructor
  · rintro ⟨⟨hexact, honce, hwindow⟩, hstarting, hrestore, hservice, halone⟩
    exact ⟨hexact, honce, Flight.most ⟨hexact, honce, hwindow⟩, windowed_iff.1 hwindow, hstarting, hrestore, hservice,
      halone⟩
  · intro h
    exact ⟨⟨h.exact, h.once, windowed_iff.2 h.window⟩, h.starting, h.restore, h.service, h.alone⟩

theorem Orderly.flight (h : Orderly s) : Flight s.index.lookups s.index.inflight s.index.other := Port.InOrder.flight h

theorem Orderly.starting (h : Orderly s) (hd : s.ctl.dev = .starting) :
    s.index.lookups = [] ∧ s.index.other = none := Port.InOrder.starting h hd

theorem Orderly.restore (h : Orderly s) (hd : s.ctl.dev = .restore) :
    s.index.lookups = [] ∧ ∀ op, s.index.other = some op → s.ctl.seedWork ≠ none ∧ ∃ b, op = .seed b :=
  Port.InOrder.restore h hd

theorem Orderly.ite {c : Prop} [Decidable c] (ht : Orderly t) (hs : Orderly s) : Orderly (if c then t else s) := by
  split
  · exact ht
  · exact hs

theorem Orderly.answer (h : Orderly s) (r : Request) (x : Status) (y : Fields) : Orderly (s.answer r x y) := h

/-! ## Beside the port -/

/-- From `p` the part has become `p'`: it is the same, but that the head may have been unblocked (R69). -/
def Port.Frees (p p' : Port) : Prop := p' = p ∨ p' = { p with lookups := unblockHead p.lookups }

/-- From `o` the engine has come to `s`, with the part of the port as it was but for a head unblocked. -/
def Beside (o s : State) : Prop := (portOf o).Frees (portOf s)

theorem unblockHead_unblockHead (ls : List QLookup) : unblockHead (unblockHead ls) = unblockHead ls := by
  cases ls with
  | nil => rfl
  | cons q ls => by_cases h : q.state = .blocked <;> simp [unblockHead, h]

theorem unblockHead_of_read {later : List QLookup} (h : q.state = .read) :
    unblockHead (q :: later) = q :: later := by simp [unblockHead, h]

theorem Beside.refl (s : State) : Beside s s := .inl rfl

theorem Port.Frees.trans {p p' p'' : Port} (h : p.Frees p') (h' : p'.Frees p'') : p.Frees p'' := by
  obtain rfl | rfl := h
  · exact h'
  · obtain rfl | rfl := h'
    · exact .inr rfl
    · exact .inr (by rw [unblockHead_unblockHead])

theorem Beside.trans (h : Beside o s) (h' : Beside s t) : Beside o t := Port.Frees.trans h h'

/-- A write that is none of the port's part. -/
theorem Beside.write (h : Beside o s) (hp : portOf t = portOf s := by rfl) : Beside o t := by
  rwa [Beside, hp]

theorem Beside.answer (h : Beside o s) (r : Request) (x : Status) (y : Fields) : Beside o (s.answer r x y) := h

theorem Beside.ite {c : Prop} [Decidable c] (ht : Beside o t) (hs : Beside o s) : Beside o (if c then t else s) := by
  split
  · exact ht
  · exact hs

theorem Beside.foldl {f : State → Nat → State} (hf : ∀ u n, Beside o u → Beside o (f u n)) (ns : List Nat)
    (h : Beside o s) : Beside o (ns.foldl f s) := by
  induction ns generalizing s with
  | nil => exact h
  | cons n ns ih => exact ih (hf s n h)

theorem Port.InOrder.of_frees {p p' : Port} (h : p.InOrder) (hp : p.Frees p') : p'.InOrder := by
  obtain rfl | rfl := hp
  · exact h
  · have hnil : p.lookups = [] → unblockHead p.lookups = [] := fun hl => by rw [hl]; rfl
    exact
      { flight := h.flight.keeps (flown_unblockHead _) h.flight.window.unblockHead
        starting := fun hd => (h.starting hd).imp_left hnil
        restore := fun hd => (h.restore hd).imp_left hnil
        service := h.service
        alone := h.alone }

theorem Orderly.of (h : Orderly s) (hb : Beside s t) : Orderly t := Port.InOrder.of_frees h hb

theorem Beside.other (h : Beside s t) : t.index.other = s.index.other :=
  Or.elim h (congrArg Port.other) (congrArg Port.other)

theorem Beside.dev (h : Beside s t) : t.ctl.dev = s.ctl.dev :=
  Or.elim h (congrArg Port.dev) (congrArg Port.dev)

theorem Beside.seedWork (h : Beside s t) : t.ctl.seedWork = s.ctl.seedWork :=
  Or.elim h (congrArg Port.seedWork) (congrArg Port.seedWork)

theorem Beside.beginWork (h : Beside s t) : t.ctl.beginWork = s.ctl.beginWork :=
  Or.elim h (congrArg Port.beginWork) (congrArg Port.beginWork)

/-! ### The branch monitor -/

theorem Beside.told (h : Beside o s) (ht : s.Told t) : Beside o t := by
  obtain ⟨m, hs, ns, rfl, -⟩ := ht
  exact h

theorem Beside.takeHandOns (h : Beside o s) (xs : List HandOn) : Beside o (s.takeHandOns xs) := by
  induction xs generalizing s with
  | nil => exact h
  | cons x xs ih => exact .ite h (ih (h.told (told_monitorTake s x)))

/-! ### Containers -/

theorem Beside.joinFreeList (h : Beside o s) (c : Nat) : Beside o (s.joinFreeList c) :=
  h.trans (.inr rfl)

theorem Beside.freeContainer (h : Beside o s) (c : Nat) : Beside o (s.freeContainer c) := h.write.joinFreeList c

theorem Beside.restWalker (h : Beside o s) : Beside o s.restWalker := by
  unfold State.restWalker
  split
  · exact h
  · exact .ite h h

theorem Beside.freeLost (h : Beside o s) (c : Nat) : Beside o (s.freeLost c) :=
  (h.freeContainer c).write.restWalker

theorem Beside.account (h : Beside o s) (c len : Nat) : Beside o (s.account c len) := by
  unfold State.account
  refine .ite ?_ h
  split
  · exact h
  · exact h.write.freeLost c
  · exact h

/-! ### Marks and reports -/

theorem Beside.enterReport (h : Beside o s) (n : Nat) (rep : Report) : Beside o (s.enterReport n rep) :=
  .ite (h.write.told (told_handOn _ _)) h

theorem Beside.placeReport (h : Beside o s) (n : Nat) (rep : Report) : Beside o (s.placeReport n rep) :=
  .ite h (.ite (h.enterReport n rep) h)

theorem Beside.closeSealed (h : Beside o s) (n : Nat) (cs : List Nat) : Beside o (s.closeSealed n cs) := by
  induction cs generalizing s with
  | nil => exact h
  | cons c cs ih => exact .ite (.ite h (.ite (ih h) h)) (ih h)

theorem Beside.completeMark (h : Beside o s) (n : Nat) : Beside o (s.completeMark n) := by
  unfold State.completeMark
  dsimp only
  split
  · exact h.write.placeReport n _
  · exact h

theorem Beside.checkMark (h : Beside o s) (n : Nat) : Beside o (s.checkMark n) := by
  have hclosed : Beside o (if (s.slot n).sealReady then
      s.closeSealed n (match (s.slot n).ended with | some sp => sp.deps | none => []) else s) :=
    .ite (h.closeSealed n _) h
  exact .ite (hclosed.completeMark n) hclosed

theorem Beside.checkMarks (h : Beside o s) (ns : List Nat) : Beside o (s.checkMarks ns) := by
  induction ns generalizing s with
  | nil => exact h
  | cons n ns ih => exact ih (h.checkMark n)

theorem Beside.abandonSeal (h : Beside o s) (n : Nat) : Beside o (s.abandonSeal n) := .ite (h.write.checkMarks _) h

theorem Beside.violate (h : Beside o s) (n : Nat) : Beside o (s.violate n) := by
  unfold State.violate
  dsimp only
  split
  · exact (h.write.placeReport n _).abandonSeal n
  · exact h

theorem Beside.discardReports (h : Beside o s) (n : Nat) : Beside o (s.discardReports n) := h.write.abandonSeal n

/-! ### Batches and the end of a stream -/

theorem Beside.makeBatch (h : Beside o s) (n : Nat) : Beside o (s.makeBatch n) := .ite (h.write.discardReports n) h

theorem Beside.callBatch (h : Beside o s) (n : Nat) : Beside o (s.callBatch n) := .ite h (.ite (h.makeBatch n) h)

/-- R110, R111: the last batch, if it is due. -/
theorem Beside.lastBatch (h : Beside o s) (n : Nat) : Beside o (if s.lastBatchDue n then s.callBatch n else s) :=
  .ite (h.callBatch n) h

theorem Beside.afterFill (h : Beside o s) (n : Nat) : Beside o (s.afterFill n) := .ite (h.callBatch n) h

theorem Beside.laneLetGo (h : Beside o s) (n l : Nat) : Beside o (laneLetGo n s l) := by
  unfold BranchStreams.laneLetGo
  split
  · exact .ite h h
  · exact h

theorem Beside.freeSlot (h : Beside o s) (n : Nat) : Beside o (s.freeSlot n) := by
  rw [freeSlot_eq_foldl]
  exact Beside.foldl (fun _ l hu => hu.laneLetGo n l) _ h.write

theorem Beside.tryClose (h : Beside o s) (n : Nat) : Beside o (s.tryClose n) := .ite (h.write.freeSlot n) h

theorem Beside.batchSent (h : Beside o s) (n : Nat) : Beside o (s.batchSent n) :=
  .ite (.ite (h.write.tryClose n) (.ite (h.write.makeBatch n) h)) h

/-! ### Index entries and releases -/

theorem Beside.insertEntry (h : Beside o s) (e : IndexEntry) (count : Nat) : Beside o (s.insertEntry e count) :=
  .ite h h

theorem Beside.takeSeedEntry (h : Beside o s) (e : SeedEntry) (count : Nat) : Beside o (s.takeSeedEntry e count) :=
  (h.insertEntry ⟨e.fp, e.length, e.container, e.offset, e.refs⟩ count).write

theorem Beside.removeEntry (h : Beside o s) (e : IndexEntry) (inSpill : Bool) (b : Nat) :
    Beside o (s.removeEntry e inSpill b) := by
  cases inSpill
  · exact h.write.account _ _
  · exact h.write.account _ _

theorem Beside.setRefs (h : Beside o s) (e : IndexEntry) (inSpill : Bool) (b refs : Nat) :
    Beside o (s.setRefs e inSpill b refs) := .ite h h

theorem Beside.completeRelease (h : Beside o s) : Beside o s.completeRelease := by
  unfold State.completeRelease
  split
  · exact .ite h h
  · exact h

theorem Beside.advanceReleases (h : Beside o s) (items : List ReleaseItem) : Beside o (s.advanceReleases items) := by
  induction items generalizing s with
  | nil => exact h
  | cons it items ih => exact .ite h (.ite h (ih (.ite h.write.completeRelease h)))

theorem Beside.sweepEntries (h : Beside o s) (b : Nat) (es : List (IndexEntry × Bool)) :
    Beside o (s.sweepEntries b es).1 := by
  induction es generalizing s with
  | nil => exact h
  | cons e es ih =>
    unfold State.sweepEntries
    split_ifs
    · exact h
    · exact h
    · exact ih (h.removeEntry _ _ b)
    · exact ih h

/-! ### The lanes and the tick -/

theorem Beside.reportMark (h : Beside o s) (l : Nat) (w : Work) (m : Nat) : Beside o (s.reportMark l w m) :=
  h.write.checkMark _

theorem Beside.reportEnd (h : Beside o s) (l : Nat) (w : Work) (m : Nat) : Beside o (s.reportEnd l w m) :=
  h.write.lastBatch _

theorem Beside.finishEntry (h : Beside o s) (l n : Nat) (x : Ctx) (len : Nat) : Beside o (s.finishEntry l n x len) :=
  h.write.lastBatch n

theorem Beside.pacingMatch (h : Beside o s) (n : Nat) : Beside o (s.pacingMatch n) := .ite h (h.write.callBatch n)

theorem Beside.tickAge (h : Beside o s) (n : Nat) : Beside o (s.tickAge n) := by
  unfold State.tickAge
  dsimp only
  split
  · exact h
  · exact h

theorem Beside.tickPacing (h : Beside o s) (n : Nat) : Beside o (s.tickPacing n) := .ite (h.pacingMatch n) (.ite h h)

theorem Beside.tickMark (h : Beside o s) (n : Nat) : Beside o (s.tickMark n) := .ite (h.violate n) (.ite h h)

theorem Beside.tickSlots (h : Beside o s) (ns : List Nat) : Beside o (s.tickSlots ns) := by
  induction ns generalizing s with
  | nil => exact h
  | cons n ns ih => exact ih (((h.tickAge n).tickPacing n).tickMark n)

/-! ### The record link and the settings -/

theorem Beside.linkFault (h : Beside o s) (cause : LinkCause) : Beside o (s.linkFault cause) := .ite h (.ite h h)

theorem Beside.receiveRecord (h : Beside o s) (kind stream tag : Nat) (payload : List Byte) :
    Beside o (s.receiveRecord kind stream tag payload) := by
  refine .ite (.ite h (h.linkFault _)) (.ite (h.write.linkFault _) ?_)
  unfold State.receiveRequest
  dsimp only
  split
  · exact h
  · exact .ite h h

theorem Beside.makeSaved (h : Beside o s) (w : Settings) : Beside o (s.makeSaved w) := .ite h h

/-! ### The requests -/

theorem Beside.afterAbort (h : Beside o s) (n : Nat) : Beside o (s.afterAbort n) :=
  .ite ((h.discardReports n).tryClose n) (h.lastBatch n)

theorem Beside.takeAbort (h : Beside o s) : Beside o (takeAbort r s) := by
  unfold Machine.takeAbort
  split
  · exact h
  · exact h.write.afterAbort _

theorem Beside.takeSeal (h : Beside o s) : Beside o (takeSeal r s) := by
  unfold Machine.takeSeal
  split
  · exact h
  · dsimp only
    split
    · exact h
    · exact h.write.checkMark _

theorem Beside.ackReport (h : Beside o s) (r : Request) (old : Report) : Beside o (s.ackReport r old) := by
  unfold State.ackReport
  dsimp only
  split
  · exact (h.write.enterReport _ _).answer r _ _
  · exact h.write.tryClose _

theorem Beside.takeAckReport (h : Beside o s) : Beside o (takeAckReport r s) := by
  unfold Machine.takeAckReport
  split
  · exact h
  · split
    · exact h
    · exact .ite h (h.ackReport r _)

theorem Beside.makeLost (h : Beside o s) (c : Nat) : Beside o (s.makeLost c) := .ite (h.write.freeLost c) h

theorem Beside.takeDurable (h : Beside o s) : Beside o (takeDurable r s) :=
  have hmade : Beside o (s.makeDurable (field r.payload 0 2)) := .ite h h
  .ite h <| .ite h <| .ite h <| hmade.write.checkMarks _

theorem Beside.takeLost (h : Beside o s) : Beside o (takeLost r s) :=
  .ite h <| .ite h <| .ite h <| (h.makeLost _).write.checkMarks _

theorem Beside.takeFree (h : Beside o s) : Beside o (takeFree r s) :=
  .ite h <| .ite h <| (h.write.freeContainer _).answer r _ _

theorem Beside.takeFlush (h : Beside o s) : Beside o (takeFlush r s) := by
  refine .ite h (.ite h ?_)
  split
  · exact h
  · exact .ite h h

theorem Beside.takeRelease (h : Beside o s) : Beside o (takeRelease r s) :=
  .ite h <| .ite h <| .ite h <| .ite h <| h.write.advanceReleases _

theorem Beside.takeResetBaseline (h : Beside o s) : Beside o (takeResetBaseline r s) :=
  have hreset : Beside o ((baselineList r.payload).foldl (fun s n => s.setBranch n (s.branch n).resetBaseline) s) :=
    Beside.foldl (fun _ _ hu => hu.write) _ h
  .ite h <| .ite h hreset

/-- R156: no request but SEED and BEGIN SERVICE touches the port's part. -/
theorem Beside.row {i : Instr} {kind : ReqKind} {take : Request → State → State}
    (hrow : rowTaking i = some (kind, take)) (hk : kind ≠ .seed ∧ kind ≠ .beginService) (h : Beside o s)
    (r : Request) : Beside o (take r s) := by
  cases i <;> cases hrow
  case seed => exact absurd rfl hk.1
  case beginService => exact absurd rfl hk.2
  case ackReport => exact h.takeAckReport
  case abort => exact h.write.takeAbort
  case durable => exact h.write.takeDurable
  case lost => exact h.write.takeLost
  case free => exact h.write.takeFree
  case flush => exact h.write.takeFlush
  case release => exact h.takeRelease
  case resetBaseline => exact h.takeResetBaseline
  case status => exact h
  -- The other takings end in a reply, a notice or a write of no part of the port.
  case reset | setSetting | saveSettings | declare | openStream | data | mark | readReport | retime | setWeight
      | setPacing | snapshot | close | queryContainer | clearHold | queryBranch =>
    simp only [takeReset, takeSetSetting, takeSaveSettings, takeDeclare, takeOpen, takeData, takeMark, takeReadReport,
      takeRetime, takeSetWeight, takeSetPacing, takeSnapshot, takeClose, takeQueryContainer, takeClearHold,
      takeQueryBranch]
    repeat' split
    all_goals exact h
  -- SEAL is left: its name is a keyword, which a case cannot give.
  exact h.write.takeSeal

theorem Beside.resumeRequest (h : Beside o s) : Beside o s.resumeRequest := by
  unfold State.resumeRequest
  split
  · split
    · exact h.takeDurable
    · exact h.takeLost
    · exact h.takeFlush
    · exact h
  · exact h

theorem Beside.resumeStarved (h : Beside o s) : Beside o s.resumeStarved := by
  unfold State.resumeStarved
  split
  · exact h
  · exact h

theorem Beside.reclaimRun (h : Beside o s) (made : Nat) (cs : List (Nat × Container)) :
    Beside o (s.reclaimRun made cs).1 := by
  induction cs generalizing s made with
  | nil => exact h
  | cons c cs ih =>
    unfold State.reclaimRun
    split_ifs
    · exact ih h.write _
    · exact h
    · exact ih h _

/-! ## Writes to the port's part -/

/-- The index unit with no new operation, and no lookup where none was. -/
theorem Orderly.reindex (h : Orderly s) (hc : t.ctl = s.ctl)
    (hf : Flight t.index.lookups t.index.inflight t.index.other)
    (hl : s.index.lookups = [] → t.index.lookups = [])
    (ho : t.index.other = s.index.other ∨ t.index.other = none) : Orderly t := by
  have hnone (hs : s.index.other = none) : t.index.other = none := ho.elim (·.trans hs) id
  have hsome {op : OtherOp} (ht : t.index.other = some op) : s.index.other = some op :=
    ho.elim (·.symm.trans ht) fun hn => absurd (hn.symm.trans ht) nofun
  refine ⟨hf, ?_, ?_, ?_, ?_⟩ <;> dsimp only [portOf] <;> rw [hc]
  · intro hd
    obtain ⟨hlookups, hother⟩ := h.starting hd
    exact ⟨hl hlookups, hnone hother⟩
  · intro hd
    obtain ⟨hlookups, hseed⟩ := h.restore hd
    exact ⟨hl hlookups, fun op ht => hseed op (hsome ht)⟩
  · exact fun hd b ht => h.service hd b (hsome ht)
  · exact h.alone

/-- R71: what is written in SERVICE, where any lookup may wait and any operation but a seed's be in progress. -/
theorem Orderly.serve (h : Orderly s) (hc : t.ctl = s.ctl) (hd : s.ctl.dev = .service)
    (hf : Flight t.index.lookups t.index.inflight t.index.other)
    (ho : ∀ b, t.index.other ≠ some (.seed b)) : Orderly t := by
  refine ⟨hf, ?_, ?_, fun _ => ho, ?_⟩ <;> dsimp only [portOf] <;> rw [hc]
  · rw [hd]
    nofun
  · rw [hd]
    nofun
  · exact h.alone

/-- R71: the other operation gives up the port and its bucket. -/
theorem Orderly.opEnds {op : OtherOp} (h : Orderly s) (ho : s.index.other = some op) :
    Orderly (State.leaveFlight { s with index := { s.index with other := none } } op.bucket) := by
  have hflight := h.flight
  rw [ho] at hflight
  exact h.reindex rfl hflight.opEnds id (.inr rfl)

/-! ### Lookups -/

/-- The READ lookup at the head, to be applied. -/
def Heads (s : State) (q : QLookup) : Prop := q.state = .read ∧ ∃ later, s.index.lookups = q :: later

theorem Beside.heads (h : Beside s t) (hq : Heads s q) : Heads t q := by
  obtain ⟨hread, later, hl⟩ := hq
  refine ⟨hread, later, ?_⟩
  obtain h | h := h
  · exact (congrArg Port.lookups h).trans hl
  · have hlookups : t.index.lookups = unblockHead s.index.lookups := congrArg Port.lookups h
    rw [hlookups, hl, unblockHead_of_read hread]

theorem Orderly.joinLookup (h : Orderly s) (hd : s.ctl.dev = .service) (lk : Lookup) : Orderly (s.joinLookup lk) := by
  have hflight := h.flight
  refine h.serve rfl hd (hflight.keeps ?_ (hflight.window.join fun hle => if_neg (Nat.not_lt.2 hle))) (h.service hd)
  rw [show (s.joinLookup lk).index.lookups = s.index.lookups ++
      [⟨lk, if s.index.lookups.length < Config.windowMax then .pending else .queued, none⟩] from rfl,
    flown_join]
  split
  · exact stays_of_pending rfl
  · exact stays_of_queued rfl

/-- R65: the lookup that has been applied gives up its bucket. -/
theorem Orderly.popLookup (h : Orderly s) (hq : Heads s q) : Orderly (s.popLookup q) := by
  obtain ⟨hread, later, hl⟩ := hq
  have hflight := h.flight
  rw [hl] at hflight
  have hpop : (s.popLookup q).index.lookups = promote later := by
    rw [State.popLookup, State.leaveFlight, hl]
    rfl
  refine h.reindex rfl (hflight.leave ?_ ?_) (fun hnil => absurd (hl.symm.trans hnil) nofun) (.inl rfl)
  · rw [hpop, flown_promote, flown_cons_of_flies (flies_of_read hread)]
    rfl
  · rw [hpop]
    exact hflight.window.behind.promote

/-- R69: a head that becomes BLOCKED, and what it gives up with the lookups behind it. -/
theorem Orderly.block (h : Orderly s) (hq : Heads s q) (g : Nat) : Orderly (s.block q g) := by
  obtain ⟨hread, later, hl⟩ := hq
  have hflight := h.flight
  rw [hl] at hflight
  have hblocked : Orderly { s with index := { s.index with
      lookups := { q with state := .blocked, result := none } :: (s.index.lookups.drop 1).map giveUp
      inflight := s.index.inflight.filter (fun b => !(givenUp q (s.index.lookups.drop 1)).contains b)
      starving := some g } } := by
    rw [hl, List.drop_one, List.tail_cons]
    refine h.reindex rfl (hflight.leaves (gone := givenUp q later) (by simp) ?_ (hflight.window.block _))
      (fun hnil => absurd (hl.symm.trans hnil) nofun) (.inl rfl)
    rw [flown_cons_of_flies (flies_of_read hread), flown_cons_of_stays (stays_of_blocked rfl), givenUp]
    exact (((flown_giveUp later).append_right _).trans (.of_eq (List.append_assoc _ _ _))).cons _
  exact .of hblocked (.ite (.ite (.refl _) (.refl _)) (.refl _))

theorem Orderly.setHeadResult (h : Orderly s) (hq : Heads s q) (x : ReadResult) : Orderly (s.setHeadResult q x) := by
  obtain ⟨hread, later, hl⟩ := hq
  have hflight := h.flight
  have hset : (s.setHeadResult q x).index.lookups = { q with result := some x } :: later := by
    rw [State.setHeadResult, hl]
    rfl
  rw [hl] at hflight
  refine h.reindex rfl ?_ (fun hnil => absurd (hl.symm.trans hnil) nofun) (.inl rfl)
  rw [hset]
  exact hflight.keeps (flown_cons_congr rfl rfl rfl) (hflight.window.of_drop rfl)

theorem heads_setHeadResult (hq : Heads s q) (x : ReadResult) :
    Heads (s.setHeadResult q x) { q with result := some x } := ⟨hq.1, _, rfl⟩

/-! ### The apply -/

theorem Orderly.finishApply (h : Orderly s) (hq : Heads s q) (v : Verdict) (dep : Option Nat) :
    Orderly (s.finishApply q v dep) := by
  unfold State.finishApply
  exact (h.popLookup hq).of (((Beside.refl _).write.afterFill _).checkMark _)

theorem Orderly.applyDup (h : Orderly s) (hq : Heads s q) (e : IndexEntry) (inSpill : Bool) (st : ContState) :
    Orderly (s.applyDup q e inSpill st) :=
  have hset := (Beside.refl s).setRefs e inSpill q.lk.bucket (dupRefs e.refs)
  (h.of hset).finishApply (hset.heads hq) _ _

theorem Orderly.applyNew (h : Orderly s) (hq : Heads s q) (count c : Nat) : Orderly (s.applyNew q count c) := by
  have hnew (v : Container) (e : IndexEntry) : Beside s ((s.setContainer c v).insertEntry e count) :=
    (Beside.refl s).write.insertEntry e count
  unfold State.applyNew
  exact Orderly.finishApply (h.of (hnew _ _)) ((hnew _ _).heads hq) _ _

theorem Orderly.openAndPlace (h : Orderly s) (hq : Heads s q) (count g : Nat) :
    Orderly (s.openAndPlace q count g) := by
  unfold State.openAndPlace
  split
  · next c _ _ =>
    have hopened := (Beside.refl s).write (t := s.openContainer g c)
    exact (h.of hopened).applyNew (hopened.heads hq) count c
  · exact h.block hq g

theorem Orderly.placeChunk (h : Orderly s) (hq : Heads s q) (count : Nat) : Orderly (s.placeChunk q count) := by
  unfold State.placeChunk
  dsimp only
  split
  · next c _ =>
    split_ifs
    · exact h.applyNew hq count c
    · have hclosed := (Beside.refl s).write (t := s.closeToFull c .space)
      exact (h.of hclosed).openAndPlace (hclosed.heads hq) count _
    · exact h
  · exact h.openAndPlace hq count _

theorem Orderly.applyMiss (h : Orderly s) (hq : Heads s q) (count : Nat) : Orderly (s.applyMiss q count) := by
  unfold State.applyMiss
  split_ifs
  · exact h
  · exact h.placeChunk hq count
  · exact h.finishApply hq _ _

theorem Orderly.applyLost (h : Orderly s) (hq : Heads s q) (e : IndexEntry) (inSpill : Bool) (count : Nat) :
    Orderly (s.applyLost q e inSpill count) := by
  have hremoved := (Beside.refl s).removeEntry e inSpill q.lk.bucket
  have hq' := hremoved.heads hq
  exact .ite h (.ite h (((h.of hremoved).setHeadResult hq' _).applyMiss (heads_setHeadResult hq' _) _))

theorem Orderly.applyHead (h : Orderly s) : Orderly s.applyHead := by
  unfold State.applyHead
  split
  · next q later hl =>
    split
    · next hread _ =>
      have hq : Heads s q := ⟨hread, later, hl⟩
      split
      · next e inSpill _ =>
        split
        · exact h.applyDup hq e inSpill _
        · exact h.applyDup hq e inSpill _
        · exact h.applyDup hq e inSpill _
        · exact h.applyLost hq e inSpill _
        · exact h
        · exact h
      · exact h.applyMiss hq _
    · exact h
  · exact h

/-! ### Reads, releases and the sweep -/

theorem Orderly.completeRead {i : Nat} (h : Orderly s) (hl : s.index.lookups[i]? = some q) (hq : q.state = .reading) :
    Orderly (s.completeRead i q) := by
  have hflight := h.flight
  have hwindow := hflight.window.set hl (by simp [hq])
  have hnil (q' : QLookup) (hn : s.index.lookups = []) : s.index.lookups.set i q' = [] := by rw [hn, List.set_nil]
  unfold State.completeRead
  split
  · refine h.reindex rfl (hflight.leave ?_ (hwindow _)) (hnil _) (.inl rfl)
    exact (flown_set_stays hl (flies_of_reading hq) (stays_of_pending rfl)).append_right _
  · refine h.reindex rfl (hflight.keeps (flown_set hl ?_ rfl) (hwindow _)) (hnil _) (.inl rfl)
    rw [flies_of_reading hq, flies_of_read rfl]

theorem Orderly.finishItem {b : Nat} (h : Orderly s) (ho : s.index.other = some (.release b)) (it : ReleaseItem)
    (found freed : Bool) : Orderly (s.finishItem b it found freed) :=
  have hcounted : Orderly (s.countItem it found freed) := h
  (hcounted.opEnds ho).of ((Beside.ite (Beside.refl _).completeRelease (.refl _)).advanceReleases _)

theorem Orderly.releaseOp (h : Orderly s) : Orderly s.releaseOp := by
  unfold State.releaseOp
  split
  · next b it _ ho _ =>
    split
    · next e inSpill _ =>
      have hset := (Beside.refl s).setRefs e inSpill b (e.refs - 1)
      have hremoved := (Beside.refl s).removeEntry e inSpill b
      split_ifs
      · exact h.finishItem ho _ _ _
      · exact h.finishItem ho _ _ _
      · exact (h.of hset).finishItem (hset.other.trans ho) _ _ _
      · exact h
      · exact h
      · exact (h.of hremoved).finishItem (hremoved.other.trans ho) _ _ _
    · exact h.finishItem ho _ _ _
  · exact h

theorem Orderly.finishSweep {b : Nat} (h : Orderly s) (ho : s.index.other = some (.sweep b)) :
    Orderly (s.finishSweep b) := (h.opEnds ho).of (Beside.refl _).write.restWalker

theorem Orderly.sweepOp (h : Orderly s) : Orderly s.sweepOp := by
  unfold State.sweepOp
  split
  · next b ho =>
    have hswept := (Beside.refl s).sweepEntries b (s.sweepList b)
    dsimp only
    split_ifs
    · exact (h.of hswept).finishSweep (hswept.other.trans ho)
    · exact h.of hswept
  · exact h

theorem Orderly.resumePlace (h : Orderly s) (x : PlaceHold) : Orderly (s.resumePlace x) := by
  have hfreed : Orderly s.unholdPlace := h
  match x with
  | .apply => exact hfreed.applyHead
  | .release => exact hfreed.releaseOp
  | .sweep => exact hfreed.sweepOp
  | .request => exact hfreed.of (Beside.refl _).resumeRequest
  | .seal n => exact hfreed.of ((Beside.refl _).checkMark n)
  | .starved => exact hfreed.of (Beside.refl _).resumeStarved

/-! ## The controller -/

/-- R168: READY enters with RESTORE, before which nothing waits in the index unit. -/
theorem Orderly.makeReady (h : Orderly s) (hd : s.ctl.dev = .starting) : Orderly s.makeReady := by
  obtain ⟨hlookups, hother⟩ := h.starting hd
  have hseed (op : OtherOp) (hop : s.index.other = some op) : s.ctl.seedWork ≠ none ∧ ∃ b, op = .seed b :=
    absurd (hother.symm.trans hop) nofun
  exact .ite ⟨h.flight, nofun, fun _ => ⟨hlookups, hseed⟩, nofun, h.alone⟩ h

/-- R176: in FAULT the index unit stands as it was, its request refused or none held. -/
theorem Orderly.fail (h : Orderly s) (hd : t.ctl.dev = .fault) (hi : t.index = s.index)
    (hw : t.ctl.beginWork = none ∨ t.ctl.beginWork = s.ctl.beginWork ∧ t.ctl.seedWork = s.ctl.seedWork) :
    Orderly t := by
  have hflight : Flight t.index.lookups t.index.inflight t.index.other := hi ▸ h.flight
  refine ⟨hflight, ?_, ?_, ?_, fun hb => ?_⟩
  · exact fun ht => absurd (hd.symm.trans ht) nofun
  · exact fun ht => absurd (hd.symm.trans ht) nofun
  · exact fun ht => absurd (hd.symm.trans ht) nofun
  · obtain hnone | ⟨hbegin, hseed⟩ := hw
    · exact absurd hnone hb
    · exact hseed.trans (h.alone fun hn => hb (hbegin.trans hn))

/-- R162: what the refusal of a held request leaves. -/
theorem refuseHeld_works (s : State) : s.refuseHeld.index = s.index ∧ (s.refuseHeld.ctl.beginWork = none ∨
    s.refuseHeld.ctl.beginWork = s.ctl.beginWork ∧ s.refuseHeld.ctl.seedWork = s.ctl.seedWork) := by
  unfold State.refuseHeld
  split
  · dsimp only
    split
    · exact ⟨rfl, .inl rfl⟩
    · exact ⟨rfl, .inl rfl⟩
  · exact ⟨rfl, .inr ⟨rfl, rfl⟩⟩

theorem Orderly.enterFault (h : Orderly s) : Orderly s.enterFault := by
  obtain ⟨hindex, hworks⟩ := refuseHeld_works s
  exact .ite (h.fail rfl hindex hworks) (h.fail rfl hindex hworks)

/-! ### SEED and BEGIN SERVICE -/

/-- R173: in RESTORE no operation is in progress and no BEGIN SERVICE is being worked: the next seed entry is judged. -/
structure Judging (s : State) : Prop where
  order : Orderly s
  dev : s.ctl.dev = .restore
  other : s.index.other = none
  beginWork : s.ctl.beginWork = none

theorem Judging.of (h : Judging s) (hb : Beside s t) : Judging t :=
  ⟨h.order.of hb, hb.dev.trans h.dev, hb.other.trans h.other, hb.beginWork.trans h.beginWork⟩

/-- Whatever is kept of a SEED, while none of its operations is in progress. -/
theorem Judging.withWork (h : Judging s) (w : Option SeedWork) :
    Orderly { s with ctl := { s.ctl with seedWork := w } } := by
  obtain ⟨horder, hdev, hother, hbegin⟩ := h
  refine ⟨horder.flight, horder.starting, fun hd => ?_, horder.service, fun hb => absurd hbegin hb⟩
  exact ⟨(horder.restore hd).1, fun op hop => absurd (hother.symm.trans hop) nofun⟩

/-- R173: the operation of a seed entry begins. -/
theorem Judging.seed (h : Judging s) (w : SeedWork) (b : Nat) :
    Orderly (State.enterFlight { s with
      ctl := { s.ctl with seedWork := some w }
      index := { s.index with other := some (.seed b) } } b) := by
  obtain ⟨horder, hdev, hother, hbegin⟩ := h
  obtain ⟨hlookups, -⟩ := horder.restore hdev
  have hflight := horder.flight
  rw [hlookups, hother] at hflight
  have hempty := hflight.inflight_eq_nil
  refine ⟨?_, ?_, fun _ => ⟨hlookups, ?_⟩, ?_, fun hb => absurd hbegin hb⟩
  · have hbegun := hflight.opBegins (.seed b) (by simp [hempty])
    rwa [← hlookups] at hbegun
  · exact fun hd => absurd (hdev.symm.trans hd) nofun
  · rintro op ⟨⟩
    exact ⟨nofun, b, rfl⟩
  · exact fun hd => absurd (hdev.symm.trans hd) nofun

theorem Judging.runSeed (h : Judging s) (bad : Option Nat) (w : SeedWork) (es : List SeedEntry) :
    Orderly (s.runSeed bad w es) := by
  induction es generalizing bad w with
  | nil =>
    unfold State.runSeed
    dsimp only
    split
    · exact (h.withWork none).answer _ _ _
    · exact h.withWork none
  | cons e es ih =>
    exact .ite (h.withWork _).enterFault (.ite (ih _ _) (.ite (ih _ _) (h.seed _ _)))

/-- R173: the operation of the seed entry in hand ends, and the next is judged. -/
theorem Orderly.seedOp (h : Orderly s) (hd : s.ctl.dev = .restore) (bad : Option Nat) : Orderly (s.seedOp bad) := by
  unfold State.seedOp
  split
  · next w b hw ho =>
    have hbegin : s.ctl.beginWork = none := by
      by_contra hb
      exact absurd (hw.symm.trans (h.alone hb)) nofun
    have hleft : Judging (State.leaveFlight { s with index := { s.index with other := none } } b) :=
      ⟨h.opEnds ho, hd, rfl, hbegin⟩
    split
    · have htaken (e : SeedEntry) (count : Nat) := hleft.of ((Beside.refl _).takeSeedEntry e count)
      exact .ite (hleft.runSeed _ _ _) (.ite ((htaken _ _).runSeed _ _ _) (hleft.runSeed _ _ _))
    · exact h
  · exact h

theorem Orderly.judging (h : Orderly s) (hd : s.ctl.dev = .restore) (hw : s.ctl.seedWork = none)
    (hb : s.ctl.beginWork = none) : Judging s :=
  ⟨h, hd, Option.eq_none_iff_forall_ne_some.2 fun op hop => ((h.restore hd).2 op hop).1 hw, hb⟩

/-- R174: the device enters SERVICE with nothing in the index unit. -/
theorem Orderly.enterService (h : Orderly s) (hd : s.ctl.dev = .restore) (hw : s.ctl.seedWork = none) (made : Nat) :
    Orderly (s.enterService made) := by
  have hserving (free : List Nat) : Orderly { s with
      place := { s.place with freeList := free }
      ctl := { s.ctl with dev := .service, beginWork := none } } :=
    ⟨h.flight, nofun, nofun, fun _ b hop => ((h.restore hd).2 _ hop).1 hw, fun hb => absurd rfl hb⟩
  unfold State.enterService
  dsimp only
  split
  · exact (hserving _).answer _ _ _
  · exact hserving _

theorem Orderly.runBegin (h : Orderly s) (hd : s.ctl.dev = .restore) (hw : s.ctl.seedWork = none) (made : Nat)
    (bad : Option Nat) : Orderly (s.runBegin made bad) := by
  have hrun := (Beside.refl s).reclaimRun made (recordsBefore bad s.place.containers)
  have hkept {u : State} (hu : Beside s u) (m : Nat) :
      Orderly { u with ctl := { u.ctl with beginWork := some m } } :=
    have horder := h.of hu
    ⟨horder.flight, horder.starting, horder.restore, horder.service, fun _ => hu.seedWork.trans hw⟩
  unfold State.runBegin
  split
  · next hc =>
    rw [hc] at hrun
    exact hkept hrun _
  · next u made' hc =>
    rw [hc] at hrun
    exact .ite (hkept hrun _).enterFault ((h.of hrun).enterService (hrun.dev.trans hd) (hrun.seedWork.trans hw) made')

/-! ## The commands -/

/-- A next state, if that is the outcome, keeps the port in order. -/
def KeepsOrder (x : Host.Outcome State Fault Refusal) : Prop := ∀ t, x = .next t → Orderly t

theorem keepsOrder_next (h : Orderly s) : KeepsOrder (.next s) := fun _ ht => Host.Outcome.next.inj ht ▸ h

/-- A command that acts beside the port. -/
theorem keepsOrder_of (h : Orderly s) (hb : Beside s t) : KeepsOrder (.next t) := keepsOrder_next (h.of hb)

theorem keepsOrder_ite {c : Prop} [Decidable c] {x y : Host.Outcome State Fault Refusal} (h : KeepsOrder x)
    (h' : KeepsOrder y) : KeepsOrder (if c then x else y) := by
  split
  · exact h
  · exact h'

/-- Log entry 10: a command acts if its conditions hold, and otherwise the state stays as it is. -/
theorem keepsOrder_when {c : Prop} [Decidable c] (ht : Orderly t) (h : Orderly s) :
    KeepsOrder (if c then .next t else .next s) := keepsOrder_ite (keepsOrder_next ht) (keepsOrder_next h)

theorem keepsOrder_unless {c : Prop} [Decidable c] (ht : Orderly t) (h : Orderly s) :
    KeepsOrder (if c then .next s else .next t) := keepsOrder_ite (keepsOrder_next h) (keepsOrder_next ht)

/-! ### Requests -/

/-- R155, R165: no block holds a request while the controller takes one. -/
theorem works_of_ownerFree {kind : ReqKind} (hk : kind = .seed ∨ kind = .beginService)
    (h : s.ownerFree kind = true) : s.ctl.seedWork = none ∧ s.ctl.beginWork = none := by
  rcases hk with rfl | rfl
  all_goals
    simp only [State.ownerFree, Bool.and_eq_true, Option.isNone_iff_eq_none] at h
    obtain ⟨-, ⟨-, hseed⟩, hbegin⟩ := h
    exact ⟨hseed, hbegin⟩

theorem Orderly.takeSeed (h : Orderly s) (hw : s.ctl.seedWork = none) (hb : s.ctl.beginWork = none) (r : Request)
    (bad : Option Nat) : Orderly (takeSeed r bad s) := by
  unfold Machine.takeSeed
  dsimp only
  split_ifs with hd
  · exact h
  · exact h
  · exact (h.judging (not_not.1 hd) hw hb).runSeed _ _ _

theorem Orderly.takeBeginService (h : Orderly s) (hw : s.ctl.seedWork = none) (r : Request) (bad : Option Nat) :
    Orderly (takeBeginService r bad s) := by
  unfold Machine.takeBeginService
  split_ifs with hd
  · exact h
  · exact h.runBegin (not_not.1 hd) hw 0 bad

theorem keepsOrder_row {i : Instr} {kind : ReqKind} {take : Request → State → State}
    (hrow : rowTaking i = some (kind, take)) (h : Orderly s) : KeepsOrder (exec i s) := by
  rw [exec_requestRow hrow]
  split
  · next r hr =>
    obtain ⟨_, _, _, _, hfree⟩ := headRequest_eq_some.1 hr
    by_cases hk : kind ≠ .seed ∧ kind ≠ .beginService
    · exact keepsOrder_of h ((Beside.refl s).row hrow hk r)
    · obtain ⟨hseed, hbegin⟩ := works_of_ownerFree (by tauto) hfree
      cases i <;> cases hrow <;> simp only [ne_eq, reduceCtorEq, not_false_eq_true, and_self, not_true_eq_false,
        false_and, and_false] at hk
      · exact keepsOrder_next (Orderly.takeSeed (s := s.noteCorrected _) h hseed hbegin r _)
      · exact keepsOrder_next (Orderly.takeBeginService (s := s.noteCorrected _) h hseed r _)
  · exact keepsOrder_next h

/-! ### Start-up, the settings store, faults -/

theorem keepsOrder_indexMemoryClearDone (h : Orderly s) : KeepsOrder (execIndexMemoryClearDone s) := by
  unfold execIndexMemoryClearDone
  split_ifs with hd
  · refine keepsOrder_next (Orderly.makeReady ?_ hd.1)
    exact h
  · exact keepsOrder_next h

theorem keepsOrder_heldReadyEntry (h : Orderly s) : KeepsOrder (execHeldReadyEntry s) := by
  unfold execHeldReadyEntry
  split_ifs with hd
  · exact keepsOrder_next (h.makeReady hd.1)
  · exact keepsOrder_next h

theorem keepsOrder_settingsProgramDone (h : Orderly s) : KeepsOrder (execSettingsProgramDone s) := by
  unfold execSettingsProgramDone
  split
  · exact keepsOrder_unless (h.of ((Beside.refl s).write.makeSaved _)) h
  · exact keepsOrder_next h

theorem keepsOrder_heldSettingsSavedEntry (h : Orderly s) : KeepsOrder (execHeldSettingsSavedEntry s) := by
  unfold execHeldSettingsSavedEntry
  split
  · exact keepsOrder_when (h.of ((Beside.refl s).makeSaved _)) h
  · exact keepsOrder_next h

theorem keepsOrder_seedOpDone (h : Orderly s) (k : Nat) (bad : Option Nat) : KeepsOrder (execSeedOpDone k s bad) := by
  unfold execSeedOpDone
  split
  · split_ifs with hd
    · exact keepsOrder_next (Orderly.seedOp (s := s.noteCorrected k) h hd.1 bad)
    · exact keepsOrder_next h
    · exact keepsOrder_next h
  · exact keepsOrder_next h

theorem keepsOrder_indexMemoryError (h : Orderly s) : KeepsOrder (execIndexMemoryError s) := by
  refine keepsOrder_ite (keepsOrder_next h) ?_
  split
  · exact keepsOrder_next h.enterFault
  · exact keepsOrder_next h.enterFault
  · exact keepsOrder_next h
  · exact keepsOrder_next h

theorem keepsOrder_pendingFaultEntry (h : Orderly s) : KeepsOrder (execPendingFaultEntry s) := by
  unfold execPendingFaultEntry
  split
  · exact keepsOrder_when h h
  · exact keepsOrder_next h

/-! ### The record link -/

theorem keepsOrder_frameReceived (h : Orderly s) (bytes : List Byte) : KeepsOrder (execFrameReceived bytes s) := by
  refine keepsOrder_ite (keepsOrder_next h) ?_
  split
  · exact keepsOrder_of h ((Beside.refl s).linkFault _)
  · exact keepsOrder_of h ((Beside.refl s).receiveRecord _ _ _ _)

theorem keepsOrder_transmitStart (h : Orderly s) : KeepsOrder (execTransmitStart s) := by
  unfold execTransmitStart
  split
  · exact keepsOrder_when h h
  · exact keepsOrder_next h

/-- R161: after a reset nothing waits in the index unit, and no operation is in progress. -/
theorem orderly_resetTo (s : State) (cause : ResetCause) (pin : Bool) : Orderly (s.resetTo cause pin) :=
  ⟨flight_nil, fun _ => ⟨rfl, rfl⟩, nofun, nofun, fun hb => absurd rfl hb⟩

theorem Orderly.finishSending (h : Orderly s) (src : TxSource) : Orderly (s.finishSending src) := by
  unfold State.finishSending
  cases src with
  | reply =>
    dsimp only
    split
    · exact .ite (orderly_resetTo _ _ _) h
    · exact h
  | notice c => exact h
  | batch n => exact h.of ((Beside.refl s).write.batchSent n)

theorem keepsOrder_frameTransmitted (h : Orderly s) (k : Nat) : KeepsOrder (execFrameTransmitted s k) := by
  unfold execFrameTransmitted
  split
  · exact keepsOrder_unless (Orderly.finishSending (s := s.noteCorrected k) h _) h
  · exact keepsOrder_next h

theorem keepsOrder_pendingLinkFaultEntry (h : Orderly s) : KeepsOrder (execPendingLinkFaultEntry s) := by
  unfold execPendingLinkFaultEntry
  split
  · exact keepsOrder_when h h
  · exact keepsOrder_next h

theorem keepsOrder_heldDataRefusedEntry (h : Orderly s) : KeepsOrder (execHeldDataRefusedEntry s) := by
  unfold execHeldDataRefusedEntry
  split
  · exact keepsOrder_when h h
  · exact keepsOrder_next h

/-! ### The lanes and their scheduler -/

theorem keepsOrder_grant (h : Orderly s) : KeepsOrder (execGrant s) := by
  have hframe : Beside s (if s.frameEnds then s.frameStart else s) := .ite (Beside.refl s).write (.refl s)
  unfold execGrant
  split
  · refine keepsOrder_ite ?_ (keepsOrder_next h)
    dsimp only
    split
    · refine keepsOrder_of h ?_
      unfold State.grantTo
      dsimp only
      split
      · exact hframe.write
      · exact hframe
    · exact keepsOrder_of h hframe
  · exact keepsOrder_next h

section lanes

variable (h : Orderly s) (hd : s.ctl.dev = .service)
include h hd

theorem Orderly.cutData (l : Nat) (w : Work) : Orderly (s.cutData l w) := by
  unfold State.cutData
  split
  · exact .ite h (h.joinLookup hd _)
  · exact h

theorem keepsOrder_laneCut (l : Nat) : KeepsOrder (execLaneCut l s) := by
  unfold execLaneCut
  split
  · split
    · exact keepsOrder_when (h.cutData hd l _) h
    · exact keepsOrder_next h
    · exact keepsOrder_next h
  · exact keepsOrder_next h

theorem Orderly.cutMarker (l : Nat) (w : Work) (cut : CutReason) {report : State → State}
    (hreport : ∀ u, Beside u (report u)) : Orderly (s.cutMarker l w cut report) :=
  .ite (.ite h ((h.joinLookup hd _).of (hreport _))) (h.of (hreport s))

theorem keepsOrder_laneMarkMarker (l k : Nat) : KeepsOrder (execLaneMarkMarker l k s) := by
  unfold execLaneMarkMarker
  split
  · split
    · exact keepsOrder_when (Orderly.cutMarker (s := s.noteCorrected k) h hd l _ _
        fun u => (Beside.refl u).reportMark l _ _) h
    · exact keepsOrder_next h
    · exact keepsOrder_next h
  · exact keepsOrder_next h

theorem keepsOrder_laneEndMarker (l : Nat) : KeepsOrder (execLaneEndMarker l s) := by
  unfold execLaneEndMarker
  split
  · split
    · exact keepsOrder_when (h.cutMarker hd l _ _ fun u => (Beside.refl u).reportEnd l _ _) h
    · exact keepsOrder_next h
    · exact keepsOrder_next h
  · exact keepsOrder_next h

theorem Orderly.laneResume (l : Nat) (w : Work) (lk : Lookup) : Orderly (s.laneResume l w lk) := by
  have hjoined : Orderly { s.joinLookup lk with waitOrder := s.waitOrder.drop 1 } := h.joinLookup hd lk
  unfold State.laneResume
  dsimp only
  split
  · exact hjoined
  · exact hjoined.of ((Beside.refl _).reportMark l w _)
  · exact hjoined.of ((Beside.refl _).reportEnd l w _)

theorem keepsOrder_laneLookupJoin (k : Nat) : KeepsOrder (execLaneLookupJoin k s) := by
  unfold execLaneLookupJoin
  split
  · split
    · split
      · exact keepsOrder_when (Orderly.laneResume (s := s.noteCorrected k) h hd _ _ _) h
      · exact keepsOrder_next h
    · exact keepsOrder_next h
  · exact keepsOrder_next h

end lanes

theorem keepsOrder_laneEntryFinish (h : Orderly s) (l k : Nat) : KeepsOrder (execLaneEntryFinish l s k) := by
  have hdone (n : Nat) (x : Ctx) (len : Nat) : Orderly ((s.noteCorrected k).finishEntry l n x len) :=
    h.of ((Beside.refl s).write.finishEntry l n x len)
  unfold execLaneEntryFinish
  split
  · refine keepsOrder_ite ?_ (keepsOrder_next h)
    split
    · split
      · exact keepsOrder_next (hdone _ _ _)
      · exact keepsOrder_next h
    · exact keepsOrder_when (hdone _ _ _) h
    · exact keepsOrder_when (hdone _ _ _) h
  · exact keepsOrder_next h

/-! ### The index unit -/

section grants

variable (h : Orderly s) (hd : s.ctl.dev = .service)
include h hd

/-- R63: the lookup that is granted was PENDING, its bucket not in flight. -/
theorem Orderly.grantLookup {i : Nat} (hi : s.lookupClaim = some i) : Orderly (s.grantLookup i) := by
  obtain ⟨⟨q, hq, hpending, -, hb, -⟩, -⟩ := lookupClaim_eq_some.1 hi
  have hflight := h.flight
  have hgranted := hflight.enter hb
    ((flown_set_flies (q' := { q with state := .reading }) hq (stays_of_pending hpending) (flies_of_reading rfl)
      rfl).append_right _) (hflight.window.set hq (by simp [hpending]) _)
  rw [State.grantLookup, hq]
  exact h.serve rfl hd hgranted (h.service hd)

theorem keepsOrder_lookupPortGrant : KeepsOrder (execLookupPortGrant s) := by
  unfold execLookupPortGrant
  split
  · next i hi => exact keepsOrder_when (h.grantLookup hd hi) h
  · exact keepsOrder_next h

/-- R71, R73: an operation that begins while none is in progress, its bucket not in flight. -/
theorem Orderly.opBegins {x : OtherOp} (ho : s.index.other = none) (hb : x.bucket ∉ s.index.inflight)
    (hx : ∀ b, x ≠ .seed b) (hc : t.ctl = s.ctl) (hl : t.index.lookups = s.index.lookups)
    (hf : t.index.inflight = s.index.inflight ++ [x.bucket]) (hother : t.index.other = some x) : Orderly t := by
  have hflight := h.flight
  rw [ho] at hflight
  have hbegun := hflight.opBegins x hb
  rw [← hl, ← hf, ← hother] at hbegun
  exact h.serve hc hd hbegun fun b hseed => hx b (Option.some.inj (hother.symm.trans hseed))

theorem keepsOrder_releasePortGrant : KeepsOrder (execReleasePortGrant s) := by
  unfold execReleasePortGrant
  split
  · next it hit =>
    obtain ⟨-, -, -, -, ho, hb⟩ := releaseClaim_eq_some.1 hit
    exact keepsOrder_when (h.opBegins hd (x := .release (bucketOf it.fp)) ho hb nofun rfl rfl rfl rfl) h
  · exact keepsOrder_next h

theorem keepsOrder_sweepPortGrant : KeepsOrder (execSweepPortGrant s) := by
  unfold execSweepPortGrant
  split_ifs with hclaims
  · simp only [Bool.and_eq_true] at hclaims
    obtain ⟨⟨⟨-, hsweep⟩, -⟩, -⟩ := hclaims
    obtain ⟨-, ho, hb⟩ := FingerprintIndex.sweepClaim_iff.1 hsweep
    exact keepsOrder_next (h.opBegins hd (x := .sweep s.walker.position) ho hb nofun rfl rfl rfl rfl)
  · exact keepsOrder_next h

end grants

theorem keepsOrder_lookupReadDone (h : Orderly s) (i k : Nat) : KeepsOrder (execLookupReadDone i k s) := by
  unfold execLookupReadDone
  split
  · next q hq =>
    split_ifs with hreading
    · exact keepsOrder_next (Orderly.completeRead (s := s.noteCorrected k) h hq hreading)
    · exact keepsOrder_next h
    · exact keepsOrder_next h
    · exact keepsOrder_next h
  · exact keepsOrder_next h

theorem keepsOrder_releaseOpDone (h : Orderly s) (k : Nat) : KeepsOrder (execReleaseOpDone k s) := by
  have hnoted : Orderly (s.noteCorrected k) := h
  unfold execReleaseOpDone
  split
  · exact keepsOrder_ite (keepsOrder_next hnoted.releaseOp) (keepsOrder_when hnoted h)
  · exact keepsOrder_next h

theorem keepsOrder_sweepOpDone (h : Orderly s) (k : Nat) : KeepsOrder (execSweepOpDone k s) := by
  have hnoted : Orderly (s.noteCorrected k) := h
  unfold execSweepOpDone
  split
  · exact keepsOrder_ite (keepsOrder_next hnoted.sweepOp) (keepsOrder_when hnoted h)
  · exact keepsOrder_next h

/-! ### Held events -/

theorem keepsOrder_heldReportEntry (h : Orderly s) (n : Nat) : KeepsOrder (execHeldReportEntry n s) := by
  unfold execHeldReportEntry
  split
  · exact keepsOrder_when (h.of ((Beside.refl s).write.enterReport n _)) h
  · exact keepsOrder_next h

theorem keepsOrder_heldAckReport (h : Orderly s) : KeepsOrder (execHeldAckReport s) := by
  unfold execHeldAckReport
  split
  · exact keepsOrder_when (h.of (Beside.refl s).write.takeAckReport) h
  · exact keepsOrder_next h

theorem keepsOrder_heldSurgeEntry (h : Orderly s) (order : List Nat) : KeepsOrder (execHeldSurgeEntry order s) := by
  unfold execHeldSurgeEntry
  split
  · exact keepsOrder_when (h.of ((Beside.refl s).write.takeHandOns _)) h
  · exact keepsOrder_next h

theorem keepsOrder_heldContainerNoticeEntry (h : Orderly s) (k : Nat) (bad : Option Nat) :
    KeepsOrder (execHeldContainerNoticeEntry k bad s) := by
  have hnoted : Orderly (s.noteCorrected k) := h
  refine keepsOrder_ite (keepsOrder_next h) ?_
  split
  · next made hd hb =>
    exact keepsOrder_next (hnoted.runBegin hd (h.alone fun hn => absurd (hb.symm.trans hn) nofun) _ bad)
  · exact keepsOrder_next ((hnoted.resumePlace _).of ((Beside.refl _).checkMarks _))
  · exact keepsOrder_next h

/-! ### Every command -/

theorem exec_keepsOrder (i : Instr) (h : Orderly s) : KeepsOrder (exec i s) := by
  have hbeside := Beside.refl s
  by_cases hidle : DeviceStates.serviceOnly i = true ∧ s.inService = false
  · rw [DeviceStates.exec_serviceOnly hidle.1 hidle.2]
    exact keepsOrder_next h
  have hd (hi : DeviceStates.serviceOnly i = true) : s.ctl.dev = .service :=
    (inService_iff.1 (Bool.not_eq_false _ ▸ fun hs => hidle ⟨hi, hs⟩)).1
  cases hrow : rowTaking i with
  | some row => exact keepsOrder_row hrow h
  | none =>
    cases i <;> simp only [rowTaking, reduceCtorEq] at hrow
    case powerOnReset => exact keepsOrder_next (orderly_resetTo _ _ _)
    case resetPinAssert => exact keepsOrder_next (orderly_resetTo _ _ _)
    case resetPinRelease => exact keepsOrder_when (orderly_resetTo _ _ _) h
    case indexMemoryClearDone => exact keepsOrder_indexMemoryClearDone h
    case frameReceived bytes => exact keepsOrder_frameReceived h bytes
    case credit count => exact keepsOrder_unless h h
    case settingsProgramDone => exact keepsOrder_settingsProgramDone h
    case seedOpDone k bad => exact keepsOrder_seedOpDone h k bad
    case transmitStart => exact keepsOrder_transmitStart h
    case frameTransmitted k => exact keepsOrder_frameTransmitted h k
    case tick k => exact keepsOrder_when (h.of (hbeside.write.tickSlots _)) h
    case pacingMatch n k => exact keepsOrder_when (h.of (hbeside.write.pacingMatch n)) h
    case markTimerLimit n k => exact keepsOrder_when (h.of (hbeside.write.violate n)) h
    case grant => exact keepsOrder_grant h
    case laneCut l => exact keepsOrder_laneCut h (hd rfl) l
    case laneLookupJoin k => exact keepsOrder_laneLookupJoin h (hd rfl) k
    case laneMarkMarker l k => exact keepsOrder_laneMarkMarker h (hd rfl) l k
    case laneEndMarker l => exact keepsOrder_laneEndMarker h (hd rfl) l
    case laneEntryFinish l k => exact keepsOrder_laneEntryFinish h l k
    case lookupPortGrant => exact keepsOrder_lookupPortGrant h (hd rfl)
    case lookupReadDone i k => exact keepsOrder_lookupReadDone h i k
    case indexMemoryError => exact keepsOrder_indexMemoryError h
    case lookupApply k => exact keepsOrder_when (Orderly.applyHead (s := s.noteCorrected k) h) h
    case releasePortGrant => exact keepsOrder_releasePortGrant h (hd rfl)
    case releaseOpDone k => exact keepsOrder_releaseOpDone h k
    case sweepPortGrant => exact keepsOrder_sweepPortGrant h (hd rfl)
    case sweepOpDone k => exact keepsOrder_sweepOpDone h k
    case heldReadyEntry => exact keepsOrder_heldReadyEntry h
    case heldDataRefusedEntry => exact keepsOrder_heldDataRefusedEntry h
    case heldStreamClosedEntry n => exact keepsOrder_of h (hbeside.tryClose n)
    case heldContainerNoticeEntry k bad => exact keepsOrder_heldContainerNoticeEntry h k bad
    case heldReportEntry n => exact keepsOrder_heldReportEntry h n
    case heldAckReport => exact keepsOrder_heldAckReport h
    case heldSurgeEntry order => exact keepsOrder_heldSurgeEntry h order
    case heldReleaseCompleteEntry => exact keepsOrder_when (h.of (hbeside.completeRelease.advanceReleases _)) h
    case heldSettingsSavedEntry => exact keepsOrder_heldSettingsSavedEntry h
    case pendingFaultEntry => exact keepsOrder_pendingFaultEntry h
    case pendingLinkFaultEntry => exact keepsOrder_pendingLinkFaultEntry h

/-- Settles O5: the command at the front keeps the port in order; on an empty queue nothing changes. -/
theorem inFlightSetStaysExact : Obligations.InFlightSetStaysExact := by
  intro s t hs hstep
  have h : Orderly s := orderly_iff.2 hs
  refine orderly_iff.1 ?_
  cases hp : s.pending with
  | cons c rest =>
    exact exec_keepsOrder (s := s.withPending rest) c h t (CanonicalTables.step_of_pending hp ▸ hstep)
  | nil => exact keepsOrder_next h t (CanonicalTables.step_of_idle hp ▸ hstep)

end Sys2Proof.PortOrder
